-- ==== Sys2Proof/Word.lean ====
section
/-! DEFINITION. The two word types of the block's ports (R33). -/

namespace Sys2Proof

/-- The command port `OP` carries 8 bits (R33, R81). -/
abbrev Byte := BitVec 8

/-- Every operand port and the result port carry 24 bits (R33; `WB` of R5). -/
abbrev Word := BitVec 24

end Sys2Proof
end

