-- ==== Sys2Proof/Config.lean ====
section
/-! DEFINITION. The constants of this hardware (R5, R6), its build parameters (R5), and the two opaque values the spec
leaves open (R350, R340). -/

namespace Sys2Proof

/-- `F` (FRAC_BITS): the fractional bits of both formats. Every shift amount of the model is this constant (R5, R6). -/
def Config.F : Nat := 8

/-- `W7`: the storage width of FixedPoint7p8 (R5, R34). -/
def Config.W7 : Nat := 16

/-- `W15`: the storage width of FixedPoint15p8 (R5, R35; the spec's own choice D3). -/
def Config.W15 : Nat := 24

/-- A value of `MUL_ROUND` or of `TOINT_ROUND` (R5, R15, R195): toward minus infinity, or toward zero. -/
inductive Rounding where
  | floor
  | trunc
  deriving DecidableEq, Repr

/-- A value of `NARROW_POLICY` (R5, R221). -/
inductive Narrowing where
  | saturate
  | wrap
  deriving DecidableEq, Repr

/-- The build parameters: "fixed when the block is built" (R5, R43). -/
structure Build where
  /-- `MUL_ROUND`: the rounding of the multiply's right shift (R15, D9). -/
  mulRound : Rounding
  /-- `NARROW_POLICY`: 15p8 to 7p8 narrowing (R221, D13). -/
  narrowPolicy : Narrowing
  /-- `TOINT_ROUND`: the rounding of integer extraction (R195, R196, D15). -/
  tointRound : Rounding
  /-- `MUL15_PRESENT`: whether QMUL15 and QLERP15 exist (R87, R153, R242, D10). -/
  mul15Present : Bool
  deriving DecidableEq, Repr

/-- The spec's own defaults (R5). -/
def Build.default : Build where
  mulRound := .floor
  narrowPolicy := .saturate
  tointRound := .floor
  mul15Present := true

/-- `T_PD`: the time from stable inputs to a valid result, OPEN in the spec (R350, D22): "a fixed bound per build" (I8), one
for every command and every operand value (R350). No two builds need share it (R341); that two blocks with the same four
parameters do is the model's choice. DESIGN CHOICE, log entry 4. -/
opaque Config.T_PD : Build → Nat

/-- FREE VALUE: what a sample of `R` taken before the inputs have been stable for `T_PD` reads: "unspecified (any
value, including a transient value no command would give)" (R351). Applied to a counter, so that two early samples need
not agree. Log entry 4. -/
opaque Config.unsettledR : Nat → Word

end Sys2Proof
end

