-- ==== Sys2Proof/Syntax.lean ====
section
/-! DEFINITION. The 24 commands (R86), the format and function each stands for (R82, R83), the ports each reads (R84) and
its names (R86, R92). -/

namespace Sys2Proof

/-- The two value formats (R34, R35); the `FMT` field of a command code (R82). -/
inductive Fmt where
  | q7p8
  | q15p8
  deriving DecidableEq, Repr

/-- `W` of a format (R5, R82). -/
def Fmt.width : Fmt → Nat
  | .q7p8 => Config.W7
  | .q15p8 => Config.W15

/-- The five operand ports (R33). -/
inductive Port where
  | p0
  | p1
  | p2
  | p3
  | p4
  deriving DecidableEq, Repr

/-- The commands, one constructor per row of the opcode map (R86). A command code carries no operand (R85). -/
inductive Instr where
  | qadd7
  | qsub7
  | qmul7
  | qdiv7
  | qneg7
  | qabs7
  | qcmp7
  | qwid
  | qfint7
  | qfrac7
  | qtint7
  | qlerp7
  | qadd15
  | qsub15
  | qmul15
  | qdiv15
  | qneg15
  | qabs15
  | qcmp15
  | qnar
  | qfint15
  | qfrac15
  | qtint15
  | qlerp15
  deriving DecidableEq, Repr

/-- The `FMT` field of a command: the format worked in, built, or (for conversion and extraction) converted from (R82). -/
def Instr.fmt : Instr → Fmt
  | .qadd7 | .qsub7 | .qmul7 | .qdiv7 | .qneg7 | .qabs7 | .qcmp7 | .qwid | .qfint7 | .qfrac7 | .qtint7 | .qlerp7 => .q7p8
  | .qadd15 | .qsub15 | .qmul15 | .qdiv15 | .qneg15 | .qabs15 | .qcmp15 | .qnar | .qfint15 | .qfrac15 | .qtint15
  | .qlerp15 => .q15p8

/-- The `FN` field of a command (R83). -/
def Instr.fn : Instr → BitVec 4
  | .qadd7 | .qadd15 => 0b0000#4
  | .qsub7 | .qsub15 => 0b0001#4
  | .qmul7 | .qmul15 => 0b0010#4
  | .qdiv7 | .qdiv15 => 0b0011#4
  | .qneg7 | .qneg15 => 0b0100#4
  | .qabs7 | .qabs15 => 0b0101#4
  | .qcmp7 | .qcmp15 => 0b0110#4
  | .qwid | .qnar => 0b0111#4
  | .qfint7 | .qfint15 => 0b1000#4
  | .qfrac7 | .qfrac15 => 0b1001#4
  | .qtint7 | .qtint15 => 0b1010#4
  | .qlerp7 | .qlerp15 => 0b1011#4

/-- The ports a command reads, in port order (R84). -/
def Instr.ports : Instr → List Port
  | .qadd7 | .qsub7 | .qmul7 | .qdiv7 | .qcmp7 | .qfrac7
  | .qadd15 | .qsub15 | .qmul15 | .qdiv15 | .qcmp15 | .qfrac15 => [.p0, .p1]
  | .qneg7 | .qabs7 | .qwid | .qfint7 | .qtint7
  | .qneg15 | .qabs15 | .qnar | .qfint15 | .qtint15 => [.p0]
  | .qlerp7 | .qlerp15 => [.p0, .p1, .p2, .p3, .p4]

/-- The command needs the 15p8 multiply, so it exists only when `MUL15_PRESENT = true` (R87, R153, R242). -/
def Instr.needsMul15 : Instr → Bool
  | .qmul15 | .qlerp15 => true
  | .qadd7 | .qsub7 | .qmul7 | .qdiv7 | .qneg7 | .qabs7 | .qcmp7 | .qwid | .qfint7 | .qfrac7 | .qtint7 | .qlerp7
  | .qadd15 | .qsub15 | .qdiv15 | .qneg15 | .qabs15 | .qcmp15 | .qnar | .qfint15 | .qfrac15 | .qtint15 => false

/-- The mnemonic (R86). -/
def Instr.mnemonic : Instr → String
  | .qadd7 => "QADD7"
  | .qsub7 => "QSUB7"
  | .qmul7 => "QMUL7"
  | .qdiv7 => "QDIV7"
  | .qneg7 => "QNEG7"
  | .qabs7 => "QABS7"
  | .qcmp7 => "QCMP7"
  | .qwid => "QWID"
  | .qfint7 => "QFINT7"
  | .qfrac7 => "QFRAC7"
  | .qtint7 => "QTINT7"
  | .qlerp7 => "QLERP7"
  | .qadd15 => "QADD15"
  | .qsub15 => "QSUB15"
  | .qmul15 => "QMUL15"
  | .qdiv15 => "QDIV15"
  | .qneg15 => "QNEG15"
  | .qabs15 => "QABS15"
  | .qcmp15 => "QCMP15"
  | .qnar => "QNAR"
  | .qfint15 => "QFINT15"
  | .qfrac15 => "QFRAC15"
  | .qtint15 => "QTINT15"
  | .qlerp15 => "QLERP15"

/-- The operations of the document, as R92 names them. -/
inductive DocForm where
  | add
  | sub
  | mul
  | div
  | neg
  | abs
  | ordering
  | to
  | fromInt
  | fromFraction
  | toInt
  | interpolation
  deriving DecidableEq, Repr

/-- The document's form of each command (R83, R92). -/
def Instr.docForm : Instr → DocForm
  | .qadd7 | .qadd15 => .add
  | .qsub7 | .qsub15 => .sub
  | .qmul7 | .qmul15 => .mul
  | .qdiv7 | .qdiv15 => .div
  | .qneg7 | .qneg15 => .neg
  | .qabs7 | .qabs15 => .abs
  | .qcmp7 | .qcmp15 => .ordering
  | .qwid | .qnar => .to
  | .qfint7 | .qfint15 => .fromInt
  | .qfrac7 | .qfrac15 => .fromFraction
  | .qtint7 | .qtint15 => .toInt
  | .qlerp7 | .qlerp15 => .interpolation

end Sys2Proof
end

