-- ==== Sys2Proof/WellFormed.lean ====
section
/-! DEFINITION. When a command is one that a build has: the only check the spec puts on a command beyond its being a row
of the opcode map (R87). Port values are never ill-formed: "malformed input is impossible" (R34, R300). -/

namespace Sys2Proof

/-- The build has the command: QMUL15 and QLERP15 exist only when `MUL15_PRESENT = true` (R87, R153, R242). -/
def Instr.wellFormed (b : Build) (i : Instr) : Bool :=
  !i.needsMul15 || b.mul15Present

end Sys2Proof
end

