-- ==== Sys2Proof/Decode.lean ====
section
/-! DEFINITION. The decoder, total on the 256 command codes (R81 to R83, R87, R90), and the encoder, written from the same
fields. -/

namespace Sys2Proof

/-- Why a command code is reserved (R87, R90). Each carries the code presented. -/
inductive ReservedCode where
  /-- `OP[7:5]` is not `000` (R81, R87). -/
  | reservedBits (op : Byte)
  /-- `FN` is `1100` to `1111` (R83, R87). -/
  | reservedFunction (op : Byte)
  /-- QMUL15 or QLERP15 in a build with `MUL15_PRESENT = false` (R87, R153, R242). -/
  | mul15Absent (op : Byte)
  deriving DecidableEq, Repr

/-- `RSV`: `OP[7:5]` (R81). -/
def fieldRsv (op : Byte) : BitVec 3 := op.extractLsb' 5 3

/-- `FMT`: `OP[4]` (R81, R82). -/
def fieldFmt (op : Byte) : Fmt := if op.getLsbD 4 then .q15p8 else .q7p8

/-- `FN`: `OP[3:0]` (R81). -/
def fieldFn (op : Byte) : BitVec 4 := op.extractLsb' 0 4

/-- The function table: `command(FMT, FN)` of R90, the rows of R83. -/
def commandOf (f : Fmt) (fn : BitVec 4) : Option Instr :=
  match fn.toNat, f with
  | 0, .q7p8 => some .qadd7
  | 0, .q15p8 => some .qadd15
  | 1, .q7p8 => some .qsub7
  | 1, .q15p8 => some .qsub15
  | 2, .q7p8 => some .qmul7
  | 2, .q15p8 => some .qmul15
  | 3, .q7p8 => some .qdiv7
  | 3, .q15p8 => some .qdiv15
  | 4, .q7p8 => some .qneg7
  | 4, .q15p8 => some .qneg15
  | 5, .q7p8 => some .qabs7
  | 5, .q15p8 => some .qabs15
  | 6, .q7p8 => some .qcmp7
  | 6, .q15p8 => some .qcmp15
  | 7, .q7p8 => some .qwid
  | 7, .q15p8 => some .qnar
  | 8, .q7p8 => some .qfint7
  | 8, .q15p8 => some .qfint15
  | 9, .q7p8 => some .qfrac7
  | 9, .q15p8 => some .qfrac15
  | 10, .q7p8 => some .qtint7
  | 10, .q15p8 => some .qtint15
  | 11, .q7p8 => some .qlerp7
  | 11, .q15p8 => some .qlerp15
  | _, _ => none

/-- Decoding, total, in the order of R90's pseudocode: the reserved bits, the reserved functions, the build's presence of
the 15p8 multiply, then the command. -/
def decode (b : Build) (op : Byte) : Except ReservedCode Instr :=
  if fieldRsv op ≠ 0 then .error (.reservedBits op)
  else match commandOf (fieldFmt op) (fieldFn op) with
    | none => .error (.reservedFunction op)
    | some i => if i.wellFormed b then .ok i else .error (.mul15Absent op)

/-- The `FMT` bit of a format (R82). -/
def Fmt.bit : Fmt → BitVec 1
  | .q7p8 => 0#1
  | .q15p8 => 1#1

/-- The command code of a command: `000 ++ FMT ++ FN` (R81). -/
def encode (i : Instr) : Byte :=
  (0#3 ++ i.fmt.bit) ++ i.fn

/-- The command the decoder reads from a code whose bits are `w`, in the spec's default build (R5); a word with a bit set
above the 8 bits of `OP` is no command code. Log entry 3. -/
def decodeTableWord (nbits w : Nat) : Option Instr :=
  if w % 2 ^ nbits < 256 then (decode Build.default (BitVec.ofNat 8 (w % 2 ^ nbits))).toOption else none

end Sys2Proof
end

