-- ==== Sys2Proof/Machine/State.lean ====
section
/-! DEFINITION. The state of the block as its ports show it (R33), with its build parameters (R5); why a step can stop. -/

namespace Sys2Proof.Machine

/-- Why the block stops with a fault: never. "The block raises no synchronous exception" (R300), and 93 Part 1: "No
behaviour of the block is treated as `fault` or `stuck`". No constructor, so nobody raises one; safe. -/
inductive Fault : Type
  deriving DecidableEq, Repr

/-- Why a step has no meaning. -/
inductive Refusal where
  /-- Raised by `exec` alone, for an instruction that has no meaning yet: none at present. Safe: the run stops. -/
  | notModelled (mnemonic : String)
  /-- Raised by `step` for a code the decoder calls reserved, and by QMUL15 and QLERP15 in a build without them. The spec
  asks for it: "A model refuses a reserved code rather than giving it a value" (R87). Safe: the hardware goes on with any
  value on `R`, the model stops. -/
  | reservedCode (why : ReservedCode)
  deriving DecidableEq, Repr

/-- What the host drives: the command code and the five operand ports (R33). -/
structure Inputs where
  op : Byte
  p0 : Word
  p1 : Word
  p2 : Word
  p3 : Word
  p4 : Word
  deriving DecidableEq, Repr

/-- The block at one moment: its ports (R33) and its build (R5). It has nothing else (R30, R31, R42 to R45, R60). -/
structure State where
  /-- `OP`, the command code (R33). -/
  op : Byte
  /-- `P0`: operand 0 (R33). -/
  p0 : Word
  /-- `P1`: operand 1 (R33). -/
  p1 : Word
  /-- `P2`: operand 2 (R33). -/
  p2 : Word
  /-- `P3`: operand 3 (R33). -/
  p3 : Word
  /-- `P4`: operand 4 (R33). -/
  p4 : Word
  /-- `R`: the result port (R33), as it last settled. No command reads it. -/
  r : Word
  /-- The build parameters (R5); no command reads or changes them other than by its rule (R43). Log entry 2. -/
  build : Build
  deriving DecidableEq, Repr

/-- A block of build `b` at power-up. There is no reset input (R340); the spec gives the ports no value (R46), so the
zeros are the model's own. DESIGN CHOICE, log entry 1. -/
def State.powerUp (b : Build) : State where
  op := 0
  p0 := 0
  p1 := 0
  p2 := 0
  p3 := 0
  p4 := 0
  r := 0
  build := b

/-- The block at power-up in the spec's default build (R5, R46, R340). -/
def State.reset : State := State.powerUp Build.default

/-- The inputs the host is driving. -/
def State.inputs (s : State) : Inputs where
  op := s.op
  p0 := s.p0
  p1 := s.p1
  p2 := s.p2
  p3 := s.p3
  p4 := s.p4

end Sys2Proof.Machine
end

