-- ==== Sys2Proof/Machine/Ops.lean ====
section
/-! DEFINITION. The helpers every rule uses (R8, R9, R11 to R15, R36) and the operations on the ports (R10, R40, R80).
TAKING AN EXCEPTION and returning from one: the block has neither (R300, R304, R305), so there is no operation for them.
There is no memory operation either (R60). -/

namespace Sys2Proof.Machine

/-! ### Numbers -/

/-- `MAX_W = 2^(W-1) - 1` (R36). -/
def maxOf (W : Nat) : Int := 2 ^ (W - 1) - 1

/-- `MIN_W = -2^(W-1)` (R36). -/
def minOf (W : Nat) : Int := -2 ^ (W - 1)

/-- `sat_W(n)` (R11). -/
def sat (W : Nat) (n : Int) : Int :=
  if n > maxOf W then maxOf W else if n < minOf W then minOf W else n

/-- `wrap_W(n) = ((n + 2^(W-1)) mod 2^W) - 2^(W-1)`, with `mod` in `[0, 2^W)` (R12). -/
def wrap (W : Nat) (n : Int) : Int :=
  (n + 2 ^ (W - 1)) % 2 ^ W - 2 ^ (W - 1)

/-- `tdiv(n, d) = s · floor(|n| / |d|)` (R13). Every rule tests `d = 0` first, so its value there is never used. -/
def tdiv (n d : Int) : Int :=
  if n = 0 ∨ (n < 0 ↔ d < 0) then ((n.natAbs / d.natAbs : Nat) : Int) else -((n.natAbs / d.natAbs : Nat) : Int)

/-- `asr(n, k) = floor(n / 2^k)` (R14). -/
def asr (n : Int) (k : Nat) : Int := Int.fdiv n (2 ^ k)

/-- `n << k = n · 2^k`, exact, also for a negative `n` (R9). -/
def shl (n : Int) (k : Nat) : Int := n * 2 ^ k

/-- A right shift by `F` with the build's rounding: `mshift` of R15, and the extraction of R195 and R196. -/
def roundShift (m : Rounding) (n : Int) : Int :=
  match m with
  | .floor => asr n Config.F
  | .trunc => tdiv n (2 ^ Config.F)

/-! ### The ports -/

/-- `enc_24(n)` (R8). -/
def enc24 (n : Int) : Word := BitVec.ofInt 24 n

/-- The operand port of that name (R10, R33). -/
def State.port (s : State) : Port → Word
  | .p0 => s.p0
  | .p1 => s.p1
  | .p2 => s.p2
  | .p3 => s.p3
  | .p4 => s.p4

/-- The block with `v` on `R` (R10: `R <- v`). -/
def State.setR (s : State) (v : Word) : State := { s with r := v }

/-- The block with the host's inputs on its input ports (R33, R80). -/
def State.drive (s : State) (x : Inputs) : State :=
  { s with op := x.op, p0 := x.p0, p1 := x.p1, p2 := x.p2, p3 := x.p3, p4 := x.p4 }

/-- The block with `v` on one operand port. -/
def State.setPort (s : State) (p : Port) (v : Word) : State :=
  match p with
  | .p0 => { s with p0 := v }
  | .p1 => { s with p1 := v }
  | .p2 => { s with p2 := v }
  | .p3 => { s with p3 := v }
  | .p4 => { s with p4 := v }

/-- The command code the block is presented with: it fetches nothing (R31, R68), the host drives it on `OP` (R80). -/
def State.commandCode (s : State) : Byte := s.op

/-- `R <- enc_24(r)`, the end of every command (R40). -/
def driveR (n : Int) (s : State) : Host.Outcome State Fault Refusal :=
  .next (s.setR (enc24 n))

/-- Run `k` if the build has the 15p8 multiply; otherwise the code of `i` is reserved and refused (R87, R153, R242). -/
def whenMul15 (i : Instr) (s : State) (k : Host.Outcome State Fault Refusal) : Host.Outcome State Fault Refusal :=
  if s.build.mul15Present then k else .refused (.reservedCode (.mul15Absent (encode i)))

end Sys2Proof.Machine
end

