-- ==== Sys2Proof/Machine/Operands.lean ====
section
/-! DEFINITION. Reading an operand from its port (R39, R84, R190), and the real number a stored integer stands for (R34,
R35). -/

namespace Sys2Proof.Machine

/-- `val_W(P<i>[W-1:0])`: a value, or a plain integer, of the format's width, read from the low bits of its port; the bits
above are ignored (R39, R84, R190). -/
def operand (f : Fmt) (p : Port) (s : State) : Int :=
  ((s.port p).extractLsb' 0 f.width).toInt

/-- Operand `a` (or `n`, or `x`): port `P0` (R84). -/
def operandA (f : Fmt) (s : State) : Int := operand f .p0 s

/-- Operand `b` (or `d`): port `P1` (R84). -/
def operandB (f : Fmt) (s : State) : Int := operand f .p1 s

/-- The real number that a stored integer of either format stands for: `n / 2^F` (R34, R35). -/
def realValue (n : Int) : ℚ := n / 2 ^ Config.F

end Sys2Proof.Machine
end

