-- ==== Sys2Proof/Machine/Flags.lean ====
section
/-! DEFINITION. The block has no flags (R42). What stands in their place: the comparison result, "a value on `R`, not a
flag" (R42, R117), and the six host tests of it (R94). -/

namespace Sys2Proof.Machine

/-- The comparison result: -1, 0 or +1 (R117, R157). -/
def compareCode (a b : Int) : Int :=
  if a < b then -1 else if a = b then 0 else 1

/-- The six relations a host tests (R94). -/
inductive Relation where
  | eq
  | ne
  | lt
  | le
  | gt
  | ge
  deriving DecidableEq, Repr

/-- The relation itself, on stored integers (R37). -/
def Relation.holds : Relation → Int → Int → Bool
  | .eq, a, b => a == b
  | .ne, a, b => a != b
  | .lt, a, b => decide (a < b)
  | .le, a, b => decide (a ≤ b)
  | .gt, a, b => decide (a > b)
  | .ge, a, b => decide (a ≥ b)

/-- The host's test of `t`, the result of QCMP7 or QCMP15: `=` is `t = 0`, `≠` is `t ≠ 0`, `<` is `t = -1`, `<=` is
`t ≠ +1`, `>` is `t = +1`, `>=` is `t ≠ -1`, on `val_24(t)` (R94). -/
def Relation.testCompare (t : Word) : Relation → Bool
  | .eq => t.toInt == 0
  | .ne => t.toInt != 0
  | .lt => t.toInt == -1
  | .le => t.toInt != 1
  | .gt => t.toInt == 1
  | .ge => t.toInt != -1

end Sys2Proof.Machine
end

