-- ==== Sys2Proof/Machine/Arith.lean ====
section
/-! DEFINITION. The operations of both formats on stored integers, each with its rounding and narrowing; "same shape for
both formats, only width differs" (the head of 41_arith_15p8.md). The commands and the interpolator share them (R240). -/

namespace Sys2Proof.Machine

/-- Saturating sum (R111, R151). -/
def qadd (f : Fmt) (a b : Int) : Int := sat f.width (a + b)

/-- Saturating difference, on the exact difference (R112, R152). -/
def qsub (f : Fmt) (a b : Int) : Int := sat f.width (a - b)

/-- Product, shifted right by `F` with `MUL_ROUND`, then wrapped: never saturated (R113, R153, conflicts C1 to C3). -/
def qmul (f : Fmt) (m : Rounding) (a b : Int) : Int := wrap f.width (roundShift m (a * b))

/-- The value of a division by zero: MAX for a dividend `≥ 0`, else MIN (R114, R154, R193, R194). -/
def divideByZero (f : Fmt) (a : Int) : Int := if a ≥ 0 then maxOf f.width else minOf f.width

/-- Saturating quotient of the dividend shifted left by `F`, rounded toward zero, with a defined division by zero (R114,
R154; on plain integers R193, R194). -/
def qdiv (f : Fmt) (a b : Int) : Int :=
  if b = 0 then divideByZero f a else sat f.width (tdiv (shl a Config.F) b)

/-- Saturating negation (R115, R155). -/
def qneg (f : Fmt) (a : Int) : Int := sat f.width (-a)

/-- Saturating absolute value (R116, R156). -/
def qabs (f : Fmt) (a : Int) : Int := if a ≥ 0 then a else qneg f a

/-- Construction from an integer (R191, R192). -/
def qfint (f : Fmt) (n : Int) : Int := sat f.width (shl n Config.F)

/-- Construction from a fraction: the division of R114 on plain integers (R193, R194). R198's aside `QFRAC7(200, 2) = MAX`
contradicts R193's pseudocode, which gives `0x6400`, and no ruling settles it; the model follows R193. DESIGN CHOICE, log
entry 11. -/
def qfrac (f : Fmt) (n d : Int) : Int := qdiv f n d

/-- Integer extraction with `TOINT_ROUND` (R195, R196). -/
def qtint (m : Rounding) (a : Int) : Int := roundShift m a

/-- Narrowing of a 15p8 value to 7p8 by `NARROW_POLICY` (R221). -/
def qnarrow (p : Narrowing) (a : Int) : Int :=
  match p with
  | .saturate => sat Config.W7 a
  | .wrap => wrap Config.W7 a

/-- Interpolation: R240's algorithm, each operator the format's own; the quotient is formed first. -/
def qlerp (f : Fmt) (m : Rounding) (x leftX leftY rightX rightY : Int) : Int :=
  let dx := qsub f rightX leftX
  let dy := qsub f rightY leftY
  if dx = 0 then leftY
  else qadd f (qmul f m (qsub f x leftX) (qdiv f dy dx)) leftY

end Sys2Proof.Machine
end

