-- ==== Sys2Proof/Machine/Arith15.lean ====
section
/-! DEFINITION. The seven FixedPoint15p8 arithmetic commands (R150 to R157). -/

namespace Sys2Proof.Machine

/-- QADD15: saturating add (R151). -/
def execQadd15 (s : State) : Host.Outcome State Fault Refusal :=
  driveR (qadd .q15p8 (operandA .q15p8 s) (operandB .q15p8 s)) s

/-- QSUB15: saturating subtract (R152). -/
def execQsub15 (s : State) : Host.Outcome State Fault Refusal :=
  driveR (qsub .q15p8 (operandA .q15p8 s) (operandB .q15p8 s)) s

/-- QMUL15: multiply, with truncating narrowing (R153; present only when `MUL15_PRESENT = true`). -/
def execQmul15 (s : State) : Host.Outcome State Fault Refusal :=
  whenMul15 .qmul15 s (driveR (qmul .q15p8 s.build.mulRound (operandA .q15p8 s) (operandB .q15p8 s)) s)

/-- QDIV15: divide, with saturation and a defined divide-by-zero (R154). -/
def execQdiv15 (s : State) : Host.Outcome State Fault Refusal :=
  driveR (qdiv .q15p8 (operandA .q15p8 s) (operandB .q15p8 s)) s

/-- QNEG15: saturating negate (R155). -/
def execQneg15 (s : State) : Host.Outcome State Fault Refusal :=
  driveR (qneg .q15p8 (operandA .q15p8 s)) s

/-- QABS15: saturating absolute value (R156). -/
def execQabs15 (s : State) : Host.Outcome State Fault Refusal :=
  driveR (qabs .q15p8 (operandA .q15p8 s)) s

/-- QCMP15: compare (R157). -/
def execQcmp15 (s : State) : Host.Outcome State Fault Refusal :=
  driveR (compareCode (operandA .q15p8 s) (operandB .q15p8 s)) s

end Sys2Proof.Machine
end

