-- ==== Sys2Proof/Machine/Arith7.lean ====
section
/-! DEFINITION. The seven FixedPoint7p8 arithmetic commands (R110 to R117). -/

namespace Sys2Proof.Machine

/-- QADD7: saturating add (R111). -/
def execQadd7 (s : State) : Host.Outcome State Fault Refusal :=
  driveR (qadd .q7p8 (operandA .q7p8 s) (operandB .q7p8 s)) s

/-- QSUB7: saturating subtract (R112). -/
def execQsub7 (s : State) : Host.Outcome State Fault Refusal :=
  driveR (qsub .q7p8 (operandA .q7p8 s) (operandB .q7p8 s)) s

/-- QMUL7: multiply, with truncating narrowing (R113). -/
def execQmul7 (s : State) : Host.Outcome State Fault Refusal :=
  driveR (qmul .q7p8 s.build.mulRound (operandA .q7p8 s) (operandB .q7p8 s)) s

/-- QDIV7: divide, with saturation and a defined divide-by-zero (R114). -/
def execQdiv7 (s : State) : Host.Outcome State Fault Refusal :=
  driveR (qdiv .q7p8 (operandA .q7p8 s) (operandB .q7p8 s)) s

/-- QNEG7: saturating negate (R115). -/
def execQneg7 (s : State) : Host.Outcome State Fault Refusal :=
  driveR (qneg .q7p8 (operandA .q7p8 s)) s

/-- QABS7: saturating absolute value (R116). -/
def execQabs7 (s : State) : Host.Outcome State Fault Refusal :=
  driveR (qabs .q7p8 (operandA .q7p8 s)) s

/-- QCMP7: compare (R117). -/
def execQcmp7 (s : State) : Host.Outcome State Fault Refusal :=
  driveR (compareCode (operandA .q7p8 s) (operandB .q7p8 s)) s

end Sys2Proof.Machine
end

