-- ==== Sys2Proof/Machine/Construct.lean ====
section
/-! DEFINITION. Construction and integer extraction (R190 to R196). -/

namespace Sys2Proof.Machine

/-- QFINT7: construction from an integer (R191). -/
def execQfint7 (s : State) : Host.Outcome State Fault Refusal :=
  driveR (qfint .q7p8 (operandA .q7p8 s)) s

/-- QFRAC7: construction from a numerator and a denominator (R193). -/
def execQfrac7 (s : State) : Host.Outcome State Fault Refusal :=
  driveR (qfrac .q7p8 (operandA .q7p8 s) (operandB .q7p8 s)) s

/-- QTINT7: the integer part of a value (R195). -/
def execQtint7 (s : State) : Host.Outcome State Fault Refusal :=
  driveR (qtint s.build.tointRound (operandA .q7p8 s)) s

/-- QFINT15: construction from an integer (R192). -/
def execQfint15 (s : State) : Host.Outcome State Fault Refusal :=
  driveR (qfint .q15p8 (operandA .q15p8 s)) s

/-- QFRAC15: construction from a numerator and a denominator (R194). -/
def execQfrac15 (s : State) : Host.Outcome State Fault Refusal :=
  driveR (qfrac .q15p8 (operandA .q15p8 s) (operandB .q15p8 s)) s

/-- QTINT15: the integer part of a value (R196). -/
def execQtint15 (s : State) : Host.Outcome State Fault Refusal :=
  driveR (qtint s.build.tointRound (operandA .q15p8 s)) s

end Sys2Proof.Machine
end

