-- ==== Sys2Proof/Machine/Convert.lean ====
section
/-! DEFINITION. Format conversion (R220, R221). -/

namespace Sys2Proof.Machine

/-- QWID: FixedPoint7p8 to FixedPoint15p8, the same stored integer (R220). -/
def execQwid (s : State) : Host.Outcome State Fault Refusal :=
  driveR (operandA .q7p8 s) s

/-- QNAR: FixedPoint15p8 to FixedPoint7p8 by `NARROW_POLICY` (R221). -/
def execQnar (s : State) : Host.Outcome State Fault Refusal :=
  driveR (qnarrow s.build.narrowPolicy (operandA .q15p8 s)) s

end Sys2Proof.Machine
end

