-- ==== Sys2Proof/Machine/Interp.lean ====
section
/-! DEFINITION. Linear interpolation (R240 to R242): `P0 = x`, `P1 = left.x`, `P2 = left.y`, `P3 = right.x`, `P4 = right.y`. -/

namespace Sys2Proof.Machine

/-- QLERP7: interpolation in FixedPoint7p8 (R241). -/
def execQlerp7 (s : State) : Host.Outcome State Fault Refusal :=
  driveR (qlerp .q7p8 s.build.mulRound (operand .q7p8 .p0 s) (operand .q7p8 .p1 s) (operand .q7p8 .p2 s)
    (operand .q7p8 .p3 s) (operand .q7p8 .p4 s)) s

/-- QLERP15: interpolation in FixedPoint15p8 (R242; present only when `MUL15_PRESENT = true`). -/
def execQlerp15 (s : State) : Host.Outcome State Fault Refusal :=
  whenMul15 .qlerp15 s (driveR (qlerp .q15p8 s.build.mulRound (operand .q15p8 .p0 s) (operand .q15p8 .p1 s) (operand .q15p8 .p2 s)
    (operand .q15p8 .p3 s) (operand .q15p8 .p4 s)) s)

end Sys2Proof.Machine
end

