-- ==== Sys2Proof/Machine/Dispatch.lean ====
section
/-! DEFINITION. The meaning of every command: one arm per row of the opcode map (R86). -/

namespace Sys2Proof.Machine

def exec (i : Instr) (s : State) : Host.Outcome State Fault Refusal :=
  match i with
  | .qadd7 => Sys2Proof.Machine.execQadd7 s
  | .qsub7 => Sys2Proof.Machine.execQsub7 s
  | .qmul7 => Sys2Proof.Machine.execQmul7 s
  | .qdiv7 => Sys2Proof.Machine.execQdiv7 s
  | .qneg7 => Sys2Proof.Machine.execQneg7 s
  | .qabs7 => Sys2Proof.Machine.execQabs7 s
  | .qcmp7 => Sys2Proof.Machine.execQcmp7 s
  | .qwid => Sys2Proof.Machine.execQwid s
  | .qfint7 => Sys2Proof.Machine.execQfint7 s
  | .qfrac7 => Sys2Proof.Machine.execQfrac7 s
  | .qtint7 => Sys2Proof.Machine.execQtint7 s
  | .qlerp7 => Sys2Proof.Machine.execQlerp7 s
  | .qadd15 => Sys2Proof.Machine.execQadd15 s
  | .qsub15 => Sys2Proof.Machine.execQsub15 s
  | .qmul15 => Sys2Proof.Machine.execQmul15 s
  | .qdiv15 => Sys2Proof.Machine.execQdiv15 s
  | .qneg15 => Sys2Proof.Machine.execQneg15 s
  | .qabs15 => Sys2Proof.Machine.execQabs15 s
  | .qcmp15 => Sys2Proof.Machine.execQcmp15 s
  | .qnar => Sys2Proof.Machine.execQnar s
  | .qfint15 => Sys2Proof.Machine.execQfint15 s
  | .qfrac15 => Sys2Proof.Machine.execQfrac15 s
  | .qtint15 => Sys2Proof.Machine.execQtint15 s
  | .qlerp15 => Sys2Proof.Machine.execQlerp15 s

end Sys2Proof.Machine
end

