-- ==== Sys2Proof/Machine/Step.lean ====
section
/-! DEFINITION. One evaluation of the block: the command on `OP` is decoded and answered on `R` (R80, R90). -/

namespace Sys2Proof.Machine

/-- One command, one step: "a model with no time, in which each command is one step, is exact for every result" (R350). A
reserved code is refused (R87). -/
def step (s : State) : Host.Outcome State Fault Refusal :=
  match decode s.build s.commandCode with
  | .ok i => exec i s
  | .error why => .refused (.reservedCode why)

/-- The block with that command code on `OP`, where `step` takes its next command. The host drives a code for every
command (R68), so this is all that running it takes. Log entry 3. -/
def State.withFetchWord (s : State) (nbits w : Nat) : State :=
  { s with op := BitVec.ofNat 8 (w % 2 ^ nbits) }

end Sys2Proof.Machine
end

