-- ==== Sys2Proof/Machine/Realisation.lean ====
section
/-! DEFINITION. A realisation of the datapath with a fixed-width signed intermediate of `n` bits, in place of exact
integers (R16, R41): "A realisation whose signed intermediate is at least the stated width gives the rules' results." It is
no part of `exec`, which computes on exact integers (R16). -/

namespace Sys2Proof.Machine

/-- Saturation of an `n`-bit intermediate to `W` bits, by signed comparison. -/
def narrowSaturating (n W : Nat) (v : BitVec n) : BitVec W :=
  if v.toInt > maxOf W then BitVec.intMax W
  else if v.toInt < minOf W then BitVec.intMin W
  else v.setWidth W

/-- The sum on an `n`-bit adder. -/
def realisedAdd (n W : Nat) (a b : BitVec W) : BitVec W :=
  narrowSaturating n W (a.signExtend n + b.signExtend n)

/-- The difference on an `n`-bit subtractor; negation is `0 - a`. -/
def realisedSub (n W : Nat) (a b : BitVec W) : BitVec W :=
  narrowSaturating n W (a.signExtend n - b.signExtend n)

/-- The product on an `n`-bit multiplier, shifted arithmetically (`floor`) or divided (`trunc`), low `W` bits kept. -/
def realisedMul (n W : Nat) (m : Rounding) (a b : BitVec W) : BitVec W :=
  let p := a.signExtend n * b.signExtend n
  match m with
  | .floor => (p.sshiftRight Config.F).setWidth W
  | .trunc => (p.sdiv (BitVec.ofNat n (2 ^ Config.F))).setWidth W

/-- The quotient on an `n`-bit signed divider, of the dividend shifted left by `F`. -/
def realisedDiv (n W : Nat) (a b : BitVec W) : BitVec W :=
  if b = 0 then (if a.msb then BitVec.intMin W else BitVec.intMax W)
  else narrowSaturating n W ((a.signExtend n <<< Config.F).sdiv (b.signExtend n))

end Sys2Proof.Machine
end

