-- ==== Sys2Proof/Machine/Sequencer.lean ====
section
/-! DEFINITION. A host that runs a program over the block: the values it holds, its lines and its control flow (R32, R91,
R94 to R96; 95_test_vectors.md section 4). The block keeps nothing between lines. Log entry 5. -/

namespace Sys2Proof.Machine

/-- A source of a line: a value the host holds, by its name, or a literal (R91). -/
inductive Source where
  | held (name : Nat)
  /-- A four-digit bit pattern: a 7p8 value. -/
  | bits16 (v : BitVec 16)
  /-- A six-digit bit pattern: a 15p8 value or a 24-bit integer. -/
  | bits24 (v : Word)
  /-- A decimal integer. -/
  | integer (n : Int)
  deriving DecidableEq, Repr

/-- One line of a host program (R91, R95). A label is the number of a line. -/
inductive Line where
  /-- `dst = MNEMONIC src0, src1, …` -/
  | command (dst : Nat) (i : Instr) (srcs : List Source)
  /-- `dst = src`, a host copy: no command. -/
  | copy (dst src : Nat)
  /-- `if <test> goto <label>`: a held value, read as `val_24`, against an integer (R94). -/
  | ifGoto (name : Nat) (rel : Relation) (k : Int) (target : Nat)
  | goto (target : Nat)
  | halt
  deriving DecidableEq, Repr

/-- Compound assignment, `dst op= src`: the sugar `dst = MNEMONIC dst, src` (R94). -/
def Line.compound (i : Instr) (dst : Nat) (src : Source) : Line := .command dst i [.held dst, src]

/-- The host and its block. -/
structure Sequencer where
  block : State
  /-- The values the host holds, by name (R32). -/
  held : List (Nat × Word)
  /-- The line to run next. -/
  line : Nat
  halted : Bool
  deriving DecidableEq, Repr

/-- Why the host cannot go on. These are the host's, not the block's; safe. -/
inductive SequencerStop where
  /-- A line reads a name the host holds no value under. -/
  | unbound (name : Nat)
  /-- A line gives a command another number of sources than R84 lists. -/
  | wrongSources (i : Instr)
  /-- Control reached a line the program does not have. -/
  | noLine (line : Nat)
  /-- The block's command was refused (R87). -/
  | refused (why : Refusal)
  deriving DecidableEq, Repr

/-- The value the host holds under a name. -/
def lookupHeld (held : List (Nat × Word)) (name : Nat) : Option Word :=
  match held with
  | [] => none
  | (n, v) :: rest => if n = name then some v else lookupHeld rest name

/-- Binding a name "replace[s] a binding with a freshly computed value" (R32). -/
def bindHeld (held : List (Nat × Word)) (name : Nat) (v : Word) : List (Nat × Word) :=
  match held with
  | [] => [(name, v)]
  | (n, w) :: rest => if n = name then (n, v) :: rest else (n, w) :: bindHeld rest name v

/-- What a source puts on its port: a 16-bit pattern stands in bits `[15:0]` (R39), an integer as its two's complement. -/
def Source.value (held : List (Nat × Word)) : Source → Option Word
  | .held n => lookupHeld held n
  | .bits16 v => some (v.zeroExtend 24)
  | .bits24 v => some v
  | .integer n => some (enc24 n)

/-- The block with the sources on the ports, in port order (R91); an unlisted port is left as it is, since it is
don't-care (R93). -/
def drivePorts (held : List (Nat × Word)) : List Port → List Source → State → Option State
  | [], [], s => some s
  | p :: ps, x :: xs, s =>
    match x.value held with
    | some v => drivePorts held ps xs (s.setPort p v)
    | none => none
  | _, _, _ => none

/-- The first name among the sources that the host holds no value under. -/
def firstUnbound (held : List (Nat × Word)) : List Source → Nat
  | .held n :: rest => if lookupHeld held n = none then n else firstUnbound held rest
  | _ :: rest => firstUnbound held rest
  | [] => 0

/-- One line of the program: a command goes through the block, everything else is the host's alone (R95, R96). -/
def Sequencer.runLine (h : Sequencer) : Line → Except SequencerStop Sequencer
  | .command dst i srcs =>
    if i.ports.length ≠ srcs.length then .error (.wrongSources i)
    else match drivePorts h.held i.ports srcs { h.block with op := encode i } with
      | none => .error (.unbound (firstUnbound h.held srcs))
      | some s =>
        match step s with
        | .next s' => .ok { h with block := s', held := bindHeld h.held dst s'.r, line := h.line + 1 }
        | .fault f => nomatch f
        | .refused why => .error (.refused why)
  | .copy dst src =>
    match lookupHeld h.held src with
    | some v => .ok { h with held := bindHeld h.held dst v, line := h.line + 1 }
    | none => .error (.unbound src)
  | .ifGoto name rel k target =>
    match lookupHeld h.held name with
    | some v => .ok { h with line := if rel.holds v.toInt k then target else h.line + 1 }
    | none => .error (.unbound name)
  | .goto target => .ok { h with line := target }
  | .halt => .ok { h with halted := true }

/-- The host runs its next line, unless it has halted. -/
def Sequencer.next (program : List Line) (h : Sequencer) : Except SequencerStop Sequencer :=
  if h.halted then .ok h
  else match program[h.line]? with
    | some l => h.runLine l
    | none => .error (.noLine h.line)

end Sys2Proof.Machine
end

