-- ==== Sys2Proof/Machine/Timed.lean ====
section
/-! DEFINITION. The block with the host's clock: presenting inputs, holding them, and sampling `R` after `T_PD` or too
early, or for an interrupted command (R340, R350, R351, R70, program P6). `step` is one command that keeps the host duty of R351; this file says what
happens also when the host does not keep it. Log entry 4. -/

namespace Sys2Proof.Machine

/-- The block, for how long its inputs have been stable, and how many early samples have been taken. -/
structure Timed where
  block : State
  /-- Time units since the last change of an input (R350, R351). -/
  heldFor : Nat
  /-- The MODEL's own counter, for `Config.unsettledR`; not the spec's. -/
  draws : Nat
  deriving DecidableEq, Repr

/-- Power-up: no input has been stable for any time yet (R340). -/
def Timed.powerUp (b : Build) : Timed where
  block := State.powerUp b
  heldFor := 0
  draws := 0

/-- The host presents inputs. Inputs equal to those already driven are no change; any other restarts the wait (R350). -/
def Timed.present (t : Timed) (x : Inputs) : Timed :=
  if t.block.inputs = x then t else { t with block := t.block.drive x, heldFor := 0 }

/-- The host holds the inputs for `n` more time units. -/
def Timed.hold (t : Timed) (n : Nat) : Timed := { t with heldFor := t.heldFor + n }

/-- A read that gives any value (R351), and harms nothing but `R`: the free value, at the model's next count. -/
def Timed.sampleAnyValue (t : Timed) : Timed :=
  { t with block := t.block.setR (Config.unsettledR t.draws), draws := t.draws + 1 }

/-- The host samples `R`. After `T_PD` it reads the command's result (R350); a reserved code is refused then (R87). Sooner
it reads any value (R351), and the block is not harmed (R70). It reads what the ports carry, whichever of the host's codes presented
it: a handler's inputs left there give the handler's answer (R340, R45; step 3 of program P6). Log entry 12. -/
def Timed.sample (t : Timed) : Host.Outcome Timed Fault Refusal :=
  if Config.T_PD t.block.build ≤ t.heldFor then
    match step t.block with
    | .next s => .next { t with block := s }
    | .fault f => .fault f
    | .refused why => .refused why
  else
    .next t.sampleAnyValue

/-- The code of the host that presented `x` samples `R` as the result of ITS command. If the ports still carry `x` this is
`sample`; if another code has driven them since, the result is lost, and "A host model that lets the interrupted code read
its result without presenting the command again must give that read `any value`" (I9, R70). Log entry 12. The
comparison is of all the ports: a change that another code made only to a port, or to bits, that the command of `x` does
not read loses the result too, where R351 asks to hold only `OP` and the ports read. DESIGN CHOICE, safe: log entry 8. -/
def Timed.sampleFor (t : Timed) (x : Inputs) : Host.Outcome Timed Fault Refusal :=
  if t.block.inputs = x then t.sample else .next t.sampleAnyValue

end Sys2Proof.Machine
end

