-- ==== Sys2Proof/Safety.lean ====
section
/-! DEFINITION. The terms the claims use: what the block answers to inputs, a sequence of commands, when a command code is
one the block has, the range every result lies in, and which bits a command reads. -/

namespace Sys2Proof.Machine

/-- `R = exec(OP, P0, P1, P2, P3, P4)` (R80): what a block of build `b` answers; nothing for a reserved code (R87).
There is no fault (R300): that arm has no case. -/
def respond (b : Build) (x : Inputs) : Option Word :=
  match step ((State.powerUp b).drive x) with
  | .next s => some s.r
  | .fault _ => none
  | .refused _ => none

/-- A host presents one command after another to the same block and notes each answer (R65). -/
def answers (s : State) : List Inputs → List (Option Word)
  | [] => []
  | x :: xs =>
    match step (s.drive x) with
    | .next s' => some s'.r :: answers s' xs
    | .fault _ => none :: answers (s.drive x) xs
    | .refused _ => none :: answers (s.drive x) xs

/-- The host duty of R341: it drives a command code that is not reserved. -/
def State.commanded (s : State) : Bool := (decode s.build s.commandCode).isOk

/-- The least and the greatest integer a command's result can be (R40, R117, R195, R196, R116, R156, R220, R221). -/
def resultRange : Instr → Int × Int
  | .qadd7 | .qsub7 | .qmul7 | .qdiv7 | .qneg7 | .qwid | .qfint7 | .qfrac7 | .qlerp7 | .qnar => (-32768, 32767)
  | .qabs7 => (0, 32767)
  | .qcmp7 | .qcmp15 => (-1, 1)
  | .qtint7 => (-128, 127)
  | .qadd15 | .qsub15 | .qmul15 | .qdiv15 | .qneg15 | .qfint15 | .qfrac15 | .qlerp15 => (-8388608, 8388607)
  | .qabs15 => (0, 8388607)
  | .qtint15 => (-32768, 32767)

/-- `R` lies in the range of the command on `OP`. -/
def State.resultInRange (s : State) : Bool :=
  match decode s.build s.commandCode with
  | .ok i => decide ((resultRange i).1 ≤ s.r.toInt) && decide (s.r.toInt ≤ (resultRange i).2)
  | .error _ => true

/-- Two blocks agree on everything the command `i` reads: the low `W` bits of each port R84 lists for it, and the build
(R39, R93). -/
def agreeOnRead (i : Instr) (s s' : State) : Bool :=
  (s.build == s'.build) && i.ports.all fun p =>
    (s.port p).extractLsb' 0 i.fmt.width == (s'.port p).extractLsb' 0 i.fmt.width

end Sys2Proof.Machine
end

