-- ==== Sys2Proof/Certificates/Slice0/Obligations.lean ====
section
/-! DEFINITION. The statements for the provers, in the spec's own arithmetic and not in the model's helpers where that can
be: literal bounds, `Int.tdiv`, floor division `/`, balanced remainders. Each docstring names the rule it rests on. -/

namespace Sys2Proof.Claims

open Sys2Proof.Machine

/-- `val_16(v[15:0])` (R8, R39). -/
def low16 (v : Word) : Int := (v.setWidth 16).toInt

/-- The 16-bit value of a port, sign-extended to the 24 bits of `R` (R40). -/
def extended (v : Word) : Word := (v.setWidth 16).signExtend 24

/-- Clamping to the range of FixedPoint7p8 (R11, R36). -/
def clamp7 (n : Int) : Int := max (-32768) (min 32767 n)

/-- Clamping to the range of FixedPoint15p8 (R11, R36). -/
def clamp15 (n : Int) : Int := max (-8388608) (min 8388607 n)

/-- A right shift by 8 with a rounding: floor division, or division toward zero (R15, R195). -/
def shift8 (m : Rounding) (n : Int) : Int :=
  match m with
  | .floor => n / 256
  | .trunc => Int.tdiv n 256

/-- The quotient of R114 with bounds `lo` and `hi`. -/
def quotient (lo hi a b : Int) : Int :=
  if b = 0 then (if 0 ≤ a then hi else lo) else max lo (min hi (Int.tdiv (a * 256) b))

/-- R240's formula with bounds `lo` and `hi` and a product wrapped modulo `modulus`. -/
def interpolated (lo hi : Int) (modulus : Nat) (m : Rounding) (x lx ly rx ry : Int) : Int :=
  let clamp := fun n : Int => max lo (min hi n)
  if rx = lx then ly
  else clamp (Int.bmod (shift8 m (clamp (x - lx) * quotient lo hi (clamp (ry - ly)) (clamp (rx - lx)))) modulus + ly)

/-- The command `i`, whose code is `code`, ANSWERS A NEXT STATE from `s`: `v` on `R` and everything else as it was. So does
`step` when `OP` carries that code. -/
def Drives (i : Instr) (code : Byte) (s : State) (v : Word) : Prop :=
  encode i = code ∧ exec i s = .next { s with r := v } ∧ (s.op = code → step s = .next { s with r := v })

/-- A block of build `b` answers `v` to the code `op` with `a` on `P0`, whatever stands on the other ports. -/
def Gives1 (b : Build) (op : Byte) (a v : Word) : Prop :=
  ∀ j1 j2 j3 j4 : Word, respond b ⟨op, a, j1, j2, j3, j4⟩ = some v

/-- A block of build `b` answers `v` to the code `op` with `a` on `P0` and `c` on `P1`, whatever stands on the others. -/
def Gives2 (b : Build) (op : Byte) (a c v : Word) : Prop :=
  ∀ j2 j3 j4 : Word, respond b ⟨op, a, c, j2, j3, j4⟩ = some v

/-- A block of build `b` answers `v` to the code `op` with the five operands. -/
def Gives5 (b : Build) (op : Byte) (x lx ly rx ry v : Word) : Prop :=
  respond b ⟨op, x, lx, ly, rx, ry⟩ = some v

end Sys2Proof.Claims

open Sys2Proof Sys2Proof.Machine Sys2Proof.Claims

/-! ### What each command answers -/

/-- R111, R151: QADD7 and QADD15 saturate, always answer, and change nothing but `R`. -/
def Obligations.AddSaturates : Prop :=
  ∀ s : State,
    Drives .qadd7 0x00 s (BitVec.ofInt 24 (clamp7 (low16 s.p0 + low16 s.p1))) ∧
    Drives .qadd15 0x10 s (BitVec.ofInt 24 (clamp15 (s.p0.toInt + s.p1.toInt)))

/-- R112, R152: QSUB7 and QSUB15 saturate the exact difference. -/
def Obligations.SubtractSaturatesExactDifference : Prop :=
  ∀ s : State,
    Drives .qsub7 0x01 s (BitVec.ofInt 24 (clamp7 (low16 s.p0 - low16 s.p1))) ∧
    Drives .qsub15 0x11 s (BitVec.ofInt 24 (clamp15 (s.p0.toInt - s.p1.toInt)))

/-- R113, R153: the multiply shifts the exact product with `MUL_ROUND` (decision D9) and keeps the low bits; QMUL15 in a
build that has it (decision D10). In a build without it the hardware answers any value; the model refuses (R87: "A model
refuses a reserved code rather than giving it a value"), in `exec` too: log entry 6. -/
def Obligations.MultiplyShiftsThenWraps : Prop :=
  ∀ s : State,
    Drives .qmul7 0x02 s
      (BitVec.ofInt 24 (Int.bmod (shift8 s.build.mulRound (low16 s.p0 * low16 s.p1)) 65536)) ∧
    (s.build.mul15Present = true → Drives .qmul15 0x12 s
      (BitVec.ofInt 24 (Int.bmod (shift8 s.build.mulRound (s.p0.toInt * s.p1.toInt)) 16777216))) ∧
    (s.build.mul15Present = false →
      exec .qmul15 s = .refused (.reservedCode (.mul15Absent 0x12)) ∧
      (s.op = 0x12 → step s = .refused (.reservedCode (.mul15Absent 0x12))))

/-- QDIV7, QDIV15: rounding toward zero and the saturation of the quotient are the spec's own readings (R13 and D12, marked
derived there). -/
def Obligations.DivideSaturatesWithDefinedZeroDivisor : Prop :=
  ∀ s : State,
    Drives .qdiv7 0x03 s (BitVec.ofInt 24 (quotient (-32768) 32767 (low16 s.p0) (low16 s.p1))) ∧
    Drives .qdiv15 0x13 s (BitVec.ofInt 24 (quotient (-8388608) 8388607 s.p0.toInt s.p1.toInt))

/-- R115, R155: saturating negation; only MIN saturates. -/
def Obligations.NegateSaturates : Prop :=
  ∀ s : State,
    Drives .qneg7 0x04 s (BitVec.ofInt 24 (min 32767 (-low16 s.p0))) ∧
    Drives .qneg15 0x14 s (BitVec.ofInt 24 (min 8388607 (-s.p0.toInt)))

/-- R116, R156: saturating absolute value. -/
def Obligations.AbsoluteValueSaturates : Prop :=
  ∀ s : State,
    Drives .qabs7 0x05 s (BitVec.ofInt 24 (min 32767 |low16 s.p0|)) ∧
    Drives .qabs15 0x15 s (BitVec.ofInt 24 (min 8388607 |s.p0.toInt|))

/-- R117, R157: the comparison answers -1, 0 or +1 (decision D16), by the signed order of the stored integers. -/
def Obligations.CompareAnswersSignOfOrder : Prop :=
  ∀ s : State,
    Drives .qcmp7 0x06 s (if low16 s.p0 < low16 s.p1 then 0xFFFFFF else if low16 s.p0 = low16 s.p1 then 0 else 1) ∧
    Drives .qcmp15 0x16 s (if s.p0.toInt < s.p1.toInt then 0xFFFFFF else if s.p0 = s.p1 then 0 else 1)

/-- R220: QWID sign-extends; the stored integer, and so the real value, is unchanged. -/
def Obligations.WideningSignExtends : Prop :=
  ∀ s : State, Drives .qwid 0x07 s (extended s.p0) ∧ (extended s.p0).toInt = low16 s.p0

/-- R221: QNAR saturates or keeps the low 16 bits by `NARROW_POLICY` (decision D13), and sign-extends the 7p8 result. -/
def Obligations.NarrowingFollowsPolicy : Prop :=
  ∀ s : State,
    Drives .qnar 0x17 s
      (match s.build.narrowPolicy with
        | .saturate => BitVec.ofInt 24 (clamp7 s.p0.toInt)
        | .wrap => extended s.p0)

/-- R191, R192: construction from an integer. -/
def Obligations.IntegerConstructionSaturates : Prop :=
  ∀ s : State,
    Drives .qfint7 0x08 s (BitVec.ofInt 24 (clamp7 (low16 s.p0 * 256))) ∧
    Drives .qfint15 0x18 s (BitVec.ofInt 24 (clamp15 (s.p0.toInt * 256)))

/-- QFRAC7, QFRAC15: the division on plain integers; its rounding is the spec's own reading (R13, marked derived there).
Outside the integer range it follows R193 and R194 where R198 disagrees: the model's choice, log entry 11. -/
def Obligations.FractionConstructionTruncates : Prop :=
  ∀ s : State,
    Drives .qfrac7 0x09 s (BitVec.ofInt 24 (quotient (-32768) 32767 (low16 s.p0) (low16 s.p1))) ∧
    Drives .qfrac15 0x19 s (BitVec.ofInt 24 (quotient (-8388608) 8388607 s.p0.toInt s.p1.toInt))

/-- R195, R196: integer extraction with `TOINT_ROUND` (decision D15), and its range. -/
def Obligations.IntegerExtractionRounds : Prop :=
  ∀ s : State,
    Drives .qtint7 0x0A s (BitVec.ofInt 24 (shift8 s.build.tointRound (low16 s.p0))) ∧
    (-128 ≤ shift8 s.build.tointRound (low16 s.p0) ∧ shift8 s.build.tointRound (low16 s.p0) ≤ 127) ∧
    Drives .qtint15 0x1A s (BitVec.ofInt 24 (shift8 s.build.tointRound s.p0.toInt)) ∧
    (-32768 ≤ shift8 s.build.tointRound s.p0.toInt ∧ shift8 s.build.tointRound s.p0.toInt ≤ 32767)

/-- QLERP7, QLERP15: R240's formula, every step with its own command's narrowing; it contains the quotient of QDIV, whose
rounding and saturation are the spec's own readings (R13, D12). In a build without the 15p8 multiply the hardware
answers any value to QLERP15; the model refuses (R87: "A model refuses a reserved code rather than giving it a value"), in
`exec` too: log entry 6. -/
def Obligations.InterpolationFollowsFormula : Prop :=
  ∀ s : State,
    Drives .qlerp7 0x0B s (BitVec.ofInt 24 (interpolated (-32768) 32767 65536 s.build.mulRound
      (low16 s.p0) (low16 s.p1) (low16 s.p2) (low16 s.p3) (low16 s.p4))) ∧
    (s.build.mul15Present = true → Drives .qlerp15 0x1B s (BitVec.ofInt 24 (interpolated (-8388608) 8388607 16777216
      s.build.mulRound s.p0.toInt s.p1.toInt s.p2.toInt s.p3.toInt s.p4.toInt))) ∧
    (s.build.mul15Present = false →
      exec .qlerp15 s = .refused (.reservedCode (.mul15Absent 0x1B)) ∧
      (s.op = 0x1B → step s = .refused (.reservedCode (.mul15Absent 0x1B))))

/-- R240: an interpolation answers what the host gets from the format's own commands, one at a time; the test `dx = 0` on
the saturated difference holds exactly when the two `x` are equal. -/
def Obligations.InterpolationEqualsItsCommands : Prop :=
  (∀ (b : Build) (x lx ly rx ry : Word), ∃ dx dy v : Word,
    Gives2 b 0x01 rx lx dx ∧ Gives2 b 0x01 ry ly dy ∧ Gives5 b 0x0B x lx ly rx ry v ∧
    (dx = 0 ↔ low16 rx = low16 lx) ∧
    (dx = 0 → v = extended ly) ∧
    (dx ≠ 0 → ∃ q u p : Word, Gives2 b 0x03 dy dx q ∧ Gives2 b 0x01 x lx u ∧ Gives2 b 0x02 u q p ∧
      Gives2 b 0x00 p ly v)) ∧
  (∀ (b : Build) (x lx ly rx ry : Word), b.mul15Present = true → ∃ dx dy v : Word,
    Gives2 b 0x11 rx lx dx ∧ Gives2 b 0x11 ry ly dy ∧ Gives5 b 0x1B x lx ly rx ry v ∧
    (dx = 0 ↔ rx = lx) ∧
    (dx = 0 → v = ly) ∧
    (dx ≠ 0 → ∃ q u p : Word, Gives2 b 0x13 dy dx q ∧ Gives2 b 0x11 x lx u ∧ Gives2 b 0x12 u q p ∧
      Gives2 b 0x10 p ly v))

/-! ### Decoding -/

/-- R86: the opcode map, row by row, in the spec's default build. -/
def Obligations.OpcodeMapDecodes : Prop :=
  ([0x00, 0x01, 0x02, 0x03, 0x04, 0x05, 0x06, 0x07, 0x08, 0x09, 0x0A, 0x0B,
    0x10, 0x11, 0x12, 0x13, 0x14, 0x15, 0x16, 0x17, 0x18, 0x19, 0x1A, 0x1B] : List Byte).map (decode Build.default) =
  [.qadd7, .qsub7, .qmul7, .qdiv7, .qneg7, .qabs7, .qcmp7, .qwid, .qfint7, .qfrac7, .qtint7, .qlerp7,
    .qadd15, .qsub15, .qmul15, .qdiv15, .qneg15, .qabs15, .qcmp15, .qnar, .qfint15, .qfrac15, .qtint15,
    .qlerp15].map .ok

/-- For every build: decoding a command's code gives the command where the build has it and names the code absent where it
has not; and a code that decodes is the code of what it decodes to. No two codes mean one command. -/
def Obligations.DecodeAndEncodeAgree : Prop :=
  ∀ b : Build,
    (∀ i : Instr, i.wellFormed b = true → decode b (encode i) = .ok i) ∧
    (∀ i : Instr, i.wellFormed b = false → decode b (encode i) = .error (.mul15Absent (encode i))) ∧
    (∀ (op : Byte) (i : Instr), decode b op = .ok i → encode i = op ∧ i.wellFormed b = true)

/-- A step whose code decodes runs that command, and a step on the code of a command the build has runs that command. The
block fetches nothing and moves past nothing (R31, R68). -/
def Obligations.StepRunsDecodedCommand : Prop :=
  (∀ (s : State) (i : Instr), decode s.build s.op = .ok i → step s = exec i s) ∧
  (∀ (s : State) (i : Instr), s.op = encode i → i.wellFormed s.build = true → step s = exec i s)

/-- The reserved codes, by number, are refused by name and every other code is answered (R87, R90: the partition of the
256 codes, which R90 marks derived). That the model refuses where the hardware answers any value is log entry 6. -/
def Obligations.StepRefusesExactlyReservedCodes : Prop :=
  ∀ s : State,
    let reserved : Prop := 32 ≤ s.op.toNat ∨ (12 ≤ s.op.toNat ∧ s.op.toNat ≤ 15) ∨
      (28 ≤ s.op.toNat ∧ s.op.toNat ≤ 31) ∨
      (s.build.mul15Present = false ∧ (s.op.toNat = 18 ∨ s.op.toNat = 27))
    ((∃ why : ReservedCode, step s = .refused (.reservedCode why)) ↔ reserved) ∧
    ((∃ v : Word, step s = .next { s with r := v }) ↔ ¬reserved)

/-! ### What a command changes, reads and keeps -/

/-- Every command, from every state whose build has it, answers; the block never faults (R300). -/
def Obligations.EveryCommandCompletes : Prop :=
  ∀ (i : Instr) (s : State), i.wellFormed s.build = true → ∃ v : Word, exec i s = .next { s with r := v }

/-- The frame of every command: nothing but `R` changes, neither an input port nor a build parameter (R42, R43). The block
has no other register, no flag and no memory (R30, R42, R60). -/
def Obligations.OnlyResultPortChanges : Prop :=
  ∀ (i : Instr) (s t : State), exec i s = .next t →
    t.op = s.op ∧ t.p0 = s.p0 ∧ t.p1 = s.p1 ∧ t.p2 = s.p2 ∧ t.p3 = s.p3 ∧ t.p4 = s.p4 ∧ t.build = s.build

/-- R93: a port R84 does not list, and bits `[23:16]` of a port that carries a 7p8 value or a 16-bit integer, do not change
`R`; nor does the old `R`. -/
def Obligations.AnswerDependsOnlyOnReadBits : Prop :=
  ∀ (i : Instr) (s s' : State), agreeOnRead i s s' = true →
    (∃ v : Word, exec i s = .next { s with r := v } ∧ exec i s' = .next { s' with r := v }) ∨
    (∃ why : Refusal, exec i s = .refused why ∧ exec i s' = .refused why)

/-- What a step does is what the block answers to the inputs alone (R45, R80). -/
def Obligations.StepIsFunctionOfInputs : Prop :=
  ∀ (s : State) (v : Word), respond s.build s.inputs = some v ↔ step s = .next { s with r := v }

/-- R65: in a sequence of commands each answers what it answers alone, so every order gives each command the same answer. -/
def Obligations.NoCommandDisturbsAnother : Prop :=
  (∀ (s : State) (xs : List Inputs), answers s xs = xs.map (respond s.build)) ∧
  (∀ (s : State) (xs ys : List Inputs), xs.Perm ys → (xs.zip (answers s xs)).Perm (ys.zip (answers s ys)))

/-- Presenting the same inputs again, any number of times, leaves the answer (R63, marked derived there). -/
def Obligations.EvaluationIsIdempotent : Prop :=
  ∀ (s t : State), step s = .next t → ∀ n : Nat, core.run n t = .next t

/-- A run of any length keeps the inputs and the build parameters (R43, R46). -/
def Obligations.RunsKeepInputsAndBuild : Prop :=
  ∀ (n : Nat) (s t : State), core.run n s = .next t → t.inputs = s.inputs ∧ t.build = s.build

/-- Every step leaves `R` in the range of the command on `OP`: a 7p8 result is its low half sign-extended, a comparison is
-1, 0 or +1, an extracted integer and an absolute value lie in theirs (R40, R116, R117, R156, R157, R195, R196). -/
def Obligations.StepKeepsResultInRange : Prop :=
  ∀ s t : State, s.resultInRange = true → step s = .next t → t.resultInRange = true

/-- The range invariant holds at power-up, in every build. It rests on the zeros there, the model's own choice: log entry
1. -/
def Obligations.PowerUpResultInRange : Prop :=
  State.reset.resultInRange = true ∧ ∀ b : Build, (State.powerUp b).resultInRange = true

/-- A block of any build powers up with that build (R46). That `State.reset` is a block of R5's defaults is the model's own
choice, log entry 2: R341 lets a model take any build. -/
def Obligations.ResetHasDefaultBuild : Prop :=
  State.reset.build = { mulRound := .floor, narrowPolicy := .saturate, tointRound := .floor, mul15Present := true } ∧
  ∀ b : Build, (State.powerUp b).build = b

/-! ### Laws of the commands -/

/-- QADD and QMUL are commutative in both formats (R119, R158, marked derived there). -/
def Obligations.SumAndProductCommute : Prop :=
  ∀ (b : Build) (a c : Word),
    (∃ v, Gives2 b 0x00 a c v ∧ Gives2 b 0x00 c a v) ∧ (∃ v, Gives2 b 0x02 a c v ∧ Gives2 b 0x02 c a v) ∧
    (∃ v, Gives2 b 0x10 a c v ∧ Gives2 b 0x10 c a v) ∧
    (b.mul15Present = true → ∃ v, Gives2 b 0x12 a c v ∧ Gives2 b 0x12 c a v)

/-- Adding 0, subtracting itself, multiplying and dividing by 1.0, dividing by itself (R119, R158, corner cases of R114 and
R154). -/
def Obligations.NeutralOperands : Prop :=
  ∀ (b : Build) (a : Word),
    Gives2 b 0x00 a 0 (extended a) ∧ Gives2 b 0x01 a a 0 ∧ Gives2 b 0x02 a 0x000100 (extended a) ∧
    Gives2 b 0x03 a 0x000100 (extended a) ∧ (low16 a ≠ 0 → Gives2 b 0x03 a a 0x000100) ∧
    Gives2 b 0x10 a 0 a ∧ Gives2 b 0x11 a a 0 ∧ (b.mul15Present = true → Gives2 b 0x12 a 0x000100 a) ∧
    Gives2 b 0x13 a 0x000100 a ∧ (a ≠ 0 → Gives2 b 0x13 a a 0x000100)

/-- Negating twice gives the value back except for MIN, which gives `MIN + 1`; a difference is the sum with the negation
except where the subtrahend is MIN (R119, R158, marked derived there). -/
def Obligations.NegationAndDifference : Prop :=
  (∀ (b : Build) (a : Word), ∃ m, Gives1 b 0x04 a m ∧
    (if low16 a = -32768 then Gives1 b 0x04 m 0xFF8001 else Gives1 b 0x04 m (extended a))) ∧
  (∀ (b : Build) (a : Word), ∃ m, Gives1 b 0x14 a m ∧
    (if a = 0x800000 then Gives1 b 0x14 m 0x800001 else Gives1 b 0x14 m a)) ∧
  (∀ (b : Build) (a c : Word), low16 c ≠ -32768 →
    ∃ m v, Gives1 b 0x04 c m ∧ Gives2 b 0x00 a m v ∧ Gives2 b 0x01 a c v) ∧
  (∀ (b : Build) (a c : Word), c ≠ 0x800000 →
    ∃ m v, Gives1 b 0x14 c m ∧ Gives2 b 0x10 a m v ∧ Gives2 b 0x11 a c v) ∧
  (∀ b : Build, Gives2 b 0x01 0xFFFFFF 0x008000 0x007FFF ∧ Gives1 b 0x04 0x008000 0x007FFF ∧
    Gives2 b 0x00 0xFFFFFF 0x007FFF 0x007FFE)

/-- Saturating sums and rounded products do not associate (R119, marked derived there): the spec's two sums, and, for both
values of `MUL_ROUND`, `(1/256 * 1/2) * 2.0` against `1/256 * (1/2 * 2.0)`. -/
def Obligations.SumAndProductDoNotAssociate : Prop :=
  ∀ b : Build,
    (Gives2 b 0x00 0x007FFF 0x000001 0x007FFF ∧ Gives2 b 0x00 0x007FFF 0xFFFFFF 0x007FFE ∧
      Gives2 b 0x00 0x000001 0xFFFFFF 0 ∧ Gives2 b 0x00 0x007FFF 0 0x007FFF) ∧
    (Gives2 b 0x02 0x000001 0x000080 0 ∧ Gives2 b 0x02 0 0x000200 0 ∧
      Gives2 b 0x02 0x000080 0x000200 0x000100 ∧ Gives2 b 0x02 0x000001 0x000100 0x000001)

/-- Where the exact 7p8 sum or difference is in range, widening first and last give the same 15p8 value; where the sum
saturates they differ (R158, marked derived there). -/
def Obligations.WideningCommutesWithSumAndDifference : Prop :=
  (∀ (b : Build) (a c : Word), -32768 ≤ low16 a + low16 c → low16 a + low16 c ≤ 32767 →
    ∃ wa wc v w, Gives1 b 0x07 a wa ∧ Gives1 b 0x07 c wc ∧ Gives2 b 0x00 a c v ∧ Gives1 b 0x07 v w ∧
      Gives2 b 0x10 wa wc w) ∧
  (∀ (b : Build) (a c : Word), -32768 ≤ low16 a - low16 c → low16 a - low16 c ≤ 32767 →
    ∃ wa wc v w, Gives1 b 0x07 a wa ∧ Gives1 b 0x07 c wc ∧ Gives2 b 0x01 a c v ∧ Gives1 b 0x07 v w ∧
      Gives2 b 0x11 wa wc w) ∧
  (∀ b : Build, Gives2 b 0x10 0x007FFF 0x000001 0x008000 ∧ Gives2 b 0x00 0x007FFF 0x000001 0x007FFF)

/-- Extracting the integer of a constructed value gives the integer back, under both roundings, for every integer in the
format's integer range; outside it fails by saturation (R197, marked derived there). -/
def Obligations.IntegerRoundTrip : Prop :=
  (∀ (b : Build) (n : Int), -128 ≤ n → n ≤ 127 →
    ∃ v, Gives1 b 0x08 (BitVec.ofInt 24 n) v ∧ Gives1 b 0x0A v (BitVec.ofInt 24 n)) ∧
  (∀ (b : Build) (n : Int), -32768 ≤ n → n ≤ 32767 →
    ∃ v, Gives1 b 0x18 (BitVec.ofInt 24 n) v ∧ Gives1 b 0x1A v (BitVec.ofInt 24 n)) ∧
  (∀ b : Build, Gives1 b 0x08 200 0x007FFF ∧ Gives1 b 0x0A 0x007FFF 127)

/-- For integers in the format's integer range, the fraction is the quotient of the two constructed values, a zero
denominator included; outside it the two sides may differ, and do at 200 over 2 (R198, marked derived there). The last
clause leaves open which value QFRAC7 gives there, since R198 and R193 disagree on it: log entry 11. -/
def Obligations.FractionIsQuotientOfIntegers : Prop :=
  (∀ (b : Build) (n d : Int), -128 ≤ n → n ≤ 127 → -128 ≤ d → d ≤ 127 → ∃ vn vd v,
    Gives1 b 0x08 (BitVec.ofInt 24 n) vn ∧ Gives1 b 0x08 (BitVec.ofInt 24 d) vd ∧ Gives2 b 0x03 vn vd v ∧
    Gives2 b 0x09 (BitVec.ofInt 24 n) (BitVec.ofInt 24 d) v) ∧
  (∀ (b : Build) (n d : Int), -32768 ≤ n → n ≤ 32767 → -32768 ≤ d → d ≤ 32767 → ∃ vn vd v,
    Gives1 b 0x18 (BitVec.ofInt 24 n) vn ∧ Gives1 b 0x18 (BitVec.ofInt 24 d) vd ∧ Gives2 b 0x13 vn vd v ∧
    Gives2 b 0x19 (BitVec.ofInt 24 n) (BitVec.ofInt 24 d) v) ∧
  (∀ b : Build, ∃ v, Gives1 b 0x08 200 0x007FFF ∧ Gives1 b 0x08 2 0x000200 ∧
    Gives2 b 0x03 0x007FFF 0x000200 0x003FFF ∧ Gives2 b 0x09 200 2 v ∧ v ≠ 0x003FFF)

/-- Widening then narrowing gives every 7p8 value back under both policies; narrowing then widening gives a 15p8 value back
exactly when it is in the 7p8 range (R222, marked derived there). -/
def Obligations.ConversionRoundTrip : Prop :=
  ∀ (b : Build) (a : Word),
    (∃ w, Gives1 b 0x07 a w ∧ Gives1 b 0x17 w (extended a)) ∧
    (∃ n w, Gives1 b 0x17 a n ∧ Gives1 b 0x07 n w ∧ (w = a ↔ -32768 ≤ a.toInt ∧ a.toInt ≤ 32767))

/-- A zero-width interval, a query at the left end and a constant segment all give `left.y` (R243, marked derived
there). -/
def Obligations.InterpolationAtLeftAndOnConstantSegments : Prop :=
  ∀ (b : Build) (x lx ly rx ry : Word),
    (low16 rx = low16 lx ∨ low16 x = low16 lx ∨ low16 ry = low16 ly → Gives5 b 0x0B x lx ly rx ry (extended ly)) ∧
    (b.mul15Present = true → (rx = lx ∨ x = lx ∨ ry = ly) → Gives5 b 0x1B x lx ly rx ry ly)

/-- The host's six tests of a comparison's result are the six relations on the stored integers (R37, R94). -/
def Obligations.ComparisonTestsAreTheRelations : Prop :=
  ∀ (s : State), ∃ t7 t15 : State, exec .qcmp7 s = .next t7 ∧ exec .qcmp15 s = .next t15 ∧
    ∀ rel : Relation, Relation.testCompare t7.r rel = rel.holds (low16 s.p0) (low16 s.p1) ∧
      Relation.testCompare t15.r rel = rel.holds s.p0.toInt s.p1.toInt

/-- R15: the two roundings of the shift agree on a product that is not negative or is a multiple of 256, and differ by 1
LSB on every other; so do the results of two builds, up to the wrap. -/
def Obligations.MultiplyRoundingsDifferByOneLsb : Prop :=
  (∀ n : Int, roundShift .floor n = n / 256 ∧ roundShift .trunc n = Int.tdiv n 256 ∧
    (0 ≤ n ∨ n % 256 = 0 → roundShift .floor n = roundShift .trunc n) ∧
    (n < 0 → n % 256 ≠ 0 → roundShift .trunc n = roundShift .floor n + 1)) ∧
  (∀ s : State, s.build.mulRound = .floor → let s' : State := { s with build := { s.build with mulRound := .trunc } }
    ∃ v w : Word, exec .qmul7 s = .next { s with r := v } ∧ exec .qmul7 s' = .next { s' with r := w } ∧
      (if 0 ≤ low16 s.p0 * low16 s.p1 ∨ (low16 s.p0 * low16 s.p1) % 256 = 0 then w = v
        else w.toInt = Int.bmod (v.toInt + 1) 65536))

/-- In real numbers (R34, R35), of the model's operations on stored integers: a sum in range is exact; a product in range
is less than 1 LSB below the exact one under `floor`, and toward zero and less than 1 LSB off under `trunc` (R15, decision
D9); a quotient in range is toward zero, a reading the spec marks derived (R13), and less than 1 LSB off. -/
def Obligations.RealNumberAccuracy : Prop :=
  ∀ (f : Fmt) (a b : Int),
    (minOf f.width ≤ a + b → a + b ≤ maxOf f.width → realValue (qadd f a b) = realValue a + realValue b) ∧
    (minOf f.width * 256 ≤ a * b → a * b ≤ maxOf f.width * 256 →
      0 ≤ realValue a * realValue b - realValue (qmul f .floor a b) ∧
      realValue a * realValue b - realValue (qmul f .floor a b) < realValue 1) ∧
    (minOf f.width * 256 ≤ a * b → a * b ≤ maxOf f.width * 256 →
      |realValue (qmul f .trunc a b)| ≤ |realValue a * realValue b| ∧
      |realValue a * realValue b - realValue (qmul f .trunc a b)| < realValue 1) ∧
    (b ≠ 0 → (minOf f.width : ℚ) ≤ realValue a / realValue b * 256 → realValue a / realValue b * 256 ≤ maxOf f.width →
      |realValue (qdiv f a b)| ≤ |realValue a / realValue b| ∧
      |realValue a / realValue b - realValue (qdiv f a b)| < realValue 1)

/-- The exact intermediates of the rules on every operand stay within R41's magnitudes (marked derived there). -/
def Obligations.IntermediatesStayInBounds : Prop :=
  ∀ (f : Fmt) (p q : Port) (s : State), let a := operand f p s; let b := operand f q s
    |a + b| ≤ 2 ^ f.width ∧ |a - b| ≤ 2 ^ f.width ∧ |-a| ≤ 2 ^ f.width ∧ |a * b| ≤ 2 ^ (2 * f.width - 2) ∧
    |shl a Config.F| ≤ 2 ^ (f.width + Config.F - 1) ∧
    (b ≠ 0 → |tdiv (shl a Config.F) b| ≤ 2 ^ (f.width + Config.F - 1))

/-- A datapath whose signed intermediate has at least the widths of R41's table (17, 32 and 25 bits for 7p8; 25, 48 and 33
for 15p8) computes the rules' results (R16, R41; R41 is marked derived there). The datapath is the model's own example of
what they allow: log entry 9. -/
def Obligations.FixedWidthDatapathAgrees : Prop :=
  (∀ (n : Nat) (m : Rounding) (a b : BitVec 16),
    (17 ≤ n → (realisedAdd n 16 a b).toInt = qadd .q7p8 a.toInt b.toInt ∧
      (realisedSub n 16 a b).toInt = qsub .q7p8 a.toInt b.toInt ∧ (realisedSub n 16 0 a).toInt = qneg .q7p8 a.toInt) ∧
    (32 ≤ n → (realisedMul n 16 m a b).toInt = qmul .q7p8 m a.toInt b.toInt) ∧
    (25 ≤ n → (realisedDiv n 16 a b).toInt = qdiv .q7p8 a.toInt b.toInt)) ∧
  (∀ (n : Nat) (m : Rounding) (a b : BitVec 24),
    (25 ≤ n → (realisedAdd n 24 a b).toInt = qadd .q15p8 a.toInt b.toInt ∧
      (realisedSub n 24 a b).toInt = qsub .q15p8 a.toInt b.toInt ∧ (realisedSub n 24 0 a).toInt = qneg .q15p8 a.toInt) ∧
    (48 ≤ n → (realisedMul n 24 m a b).toInt = qmul .q15p8 m a.toInt b.toInt) ∧
    (33 ≤ n → (realisedDiv n 24 a b).toInt = qdiv .q15p8 a.toInt b.toInt))

/-! ### The host: timing and programs -/

/-- Inputs held for `T_PD` and then sampled give the command's answer, whatever the block was doing before (R340, R350). The
host's clock is the model's, log entries 4 and 8. -/
def Obligations.SampleAfterSettlingGivesAnswer : Prop :=
  ∀ (t : Timed) (x : Inputs) (v : Word) (n : Nat),
    respond t.block.build x = some v → Config.T_PD t.block.build ≤ n →
    ∃ t' : Timed, ((t.present x).hold n).sample = .next t' ∧ t'.block = (t.block.drive x).setR v

/-- A sample of a commanded block always answers: with the command's answer, or, before `T_PD`, with a free value. It
harms nothing but `R` (R70, R351). This holds for every value of the free value and of the model's counter (log entry
4). -/
def Obligations.EarlySampleReadsAnyValue : Prop :=
  ∀ t : Timed, t.block.commanded = true → ∃ t' : Timed, t.sample = .next t' ∧
    t'.block.inputs = t.block.inputs ∧ t'.block.build = t.block.build ∧ t'.heldFor = t.heldFor ∧
    (respond t.block.build t.block.inputs = some t'.block.r ∨
      (t.heldFor < Config.T_PD t.block.build ∧ t'.block.r = Config.unsettledR t.draws))

/-- A handler that reuses the ports in the middle of a command gets its own answer, and the interrupted code gets its own by
presenting its inputs again (R70, R351, program P6). The host's clock is the model's, log entries 4 and 8. -/
def Obligations.InterruptedCommandIsPresentedAgain : Prop :=
  ∀ (t : Timed) (main handler : Inputs) (v w : Word) (k n : Nat),
    respond t.block.build main = some v → respond t.block.build handler = some w → Config.T_PD t.block.build ≤ n →
    ∃ t₁ t₂ : Timed, ((((t.present main).hold k).present handler).hold n).sample = .next t₁ ∧ t₁.block.r = w ∧
      ((t₁.present main).hold n).sample = .next t₂ ∧ t₂.block.r = v

/-- A handler has replaced the inputs of an interrupted code and held its own for `T_PD`: `R` carries the handler's answer
(R340, step 3 of program P6); the interrupted code, reading it as the result of its own command without presenting that
again, reads any value, and nothing but `R` changes (R70, I9); once it has presented its command again, it reads that
command's answer. It holds for every value of the free value. The model keeps the two reads apart by its own choice: log
entry 12; so is that a handler which changes only ports the command does not read replaces its inputs, log entry 8; the
host's clock is the model's, log entries 4 and 8. -/
def Obligations.InterruptedReadIsAnyValue : Prop :=
  ∀ (t : Timed) (main handler : Inputs) (w : Word) (k n : Nat),
    respond t.block.build handler = some w → Config.T_PD t.block.build ≤ n →
    let u := (((t.present main).hold k).present handler).hold n
    (∃ t' : Timed, u.sample = .next t' ∧ t'.block.r = w) ∧
    (main ≠ handler → ∃ t' : Timed, u.sampleFor main = .next t' ∧ t'.block.r = Config.unsettledR t.draws ∧
      t'.block.inputs = handler ∧ t'.block.build = t.block.build) ∧
    (∀ v : Word, respond t.block.build main = some v →
      ∃ t' : Timed, ((u.present main).hold n).sampleFor main = .next t' ∧ t'.block.r = v)

/-- A line `dst = MNEMONIC a, b` of a host program binds `dst` to the block's answer, keeps every other name and goes to the
next line; so does the compound form, which is that line with `dst` as its first source (R91, R94, R95). The
form of host programs is the model's, log entry 5. -/
def Obligations.HostLineBindsAnswer : Prop :=
  ∀ (h : Sequencer) (i : Instr) (dst a b : Nat) (va vb v : Word), i.ports = [.p0, .p1] →
    lookupHeld h.held a = some va → lookupHeld h.held b = some vb → Gives2 h.block.build (encode i) va vb v →
    ∃ h' : Sequencer, h.runLine (.command dst i [.held a, .held b]) = .ok h' ∧
      (a = dst → h.runLine (Line.compound i dst (.held b)) = .ok h') ∧
      lookupHeld h'.held dst = some v ∧ (∀ n : Nat, n ≠ dst → lookupHeld h'.held n = lookupHeld h.held n) ∧
      h'.line = h.line + 1 ∧ h'.halted = h.halted

/-- "The block takes no part in control flow" (R95, R96): a copy, a test, a jump and a halt leave the block as it is.
The form of host programs is the model's, log entry 5. -/
def Obligations.ControlFlowLeavesBlockAlone : Prop :=
  ∀ (h h' : Sequencer) (dst src name target : Nat) (rel : Relation) (k : Int) (l : Line),
    (l = .copy dst src ∨ l = .ifGoto name rel k target ∨ l = .goto target ∨ l = .halt) → h.runLine l = .ok h' →
    h'.block = h.block
end

