-- ==== Sys2Proof/Laws/Numbers.lean ====
section
/-! SUPPORT. The helpers of R8 and R11 to R15 in the terms proofs use: clamps, balanced remainders, `Int.tdiv`, `/`. -/

namespace Sys2Proof.Machine

@[simp] theorem width_q7p8 : Fmt.width .q7p8 = 16 := rfl
@[simp] theorem width_q15p8 : Fmt.width .q15p8 = 24 := rfl
@[simp] theorem maxOf_16 : maxOf 16 = 32767 := rfl
@[simp] theorem minOf_16 : minOf 16 = -32768 := rfl
@[simp] theorem maxOf_24 : maxOf 24 = 8388607 := rfl
@[simp] theorem minOf_24 : minOf 24 = -8388608 := rfl

theorem minOf_le_maxOf (W : Nat) : minOf W ≤ maxOf W := by
  have h : (0 : Int) < 2 ^ (W - 1) := by positivity
  simp only [minOf, maxOf]
  omega

/-- Saturation is a clamp (R11). -/
theorem sat_eq_clamp (W : Nat) (n : Int) : sat W n = max (minOf W) (min (maxOf W) n) := by
  have h := minOf_le_maxOf W
  unfold sat
  split
  · omega
  · split <;> omega

theorem minOf_le_sat (W : Nat) (n : Int) : minOf W ≤ sat W n := by
  rw [sat_eq_clamp]
  exact le_max_left _ _

theorem sat_le_maxOf (W : Nat) (n : Int) : sat W n ≤ maxOf W := by
  have h := minOf_le_maxOf W
  rw [sat_eq_clamp]
  omega

/-- A value in range is its own saturation (R11). -/
theorem sat_of_mem (W : Nat) (n : Int) (h₁ : minOf W ≤ n) (h₂ : n ≤ maxOf W) : sat W n = n := by
  rw [sat_eq_clamp]
  omega

/-- Wrapping to 7p8 is the balanced remainder (R12). -/
theorem wrap_16 (n : Int) : wrap 16 n = Int.bmod n 65536 := by
  simp only [wrap, Int.bmod_def]
  omega

/-- Wrapping to 15p8 is the balanced remainder (R12). -/
theorem wrap_24 (n : Int) : wrap 24 n = Int.bmod n 16777216 := by
  simp only [wrap, Int.bmod_def]
  omega

/-- A wrapped value is in its format's range (R12, R36). -/
theorem wrap_mem (f : Fmt) (n : Int) : minOf f.width ≤ wrap f.width n ∧ wrap f.width n ≤ maxOf f.width := by
  cases f <;> simp only [width_q7p8, width_q15p8, minOf_16, maxOf_16, minOf_24, maxOf_24, wrap] <;> omega

/-- `tdiv` rounds toward zero, as the library's `Int.tdiv` does (R13). -/
theorem tdiv_eq (n d : Int) : tdiv n d = Int.tdiv n d := by
  unfold tdiv
  obtain ⟨a, rfl | rfl⟩ := n.eq_nat_or_neg
  · obtain ⟨b, rfl | rfl⟩ := d.eq_nat_or_neg
    · rw [if_pos (by omega)]
      simp
    · split
      · rcases ‹_ ∨ _› with h | h
        · simp_all
        · have hb : b = 0 := by omega
          simp [hb]
      · simp
  · obtain ⟨b, rfl | rfl⟩ := d.eq_nat_or_neg
    · split
      · rcases ‹_ ∨ _› with h | h
        · simp_all
        · have ha : a = 0 := by omega
          simp [ha]
      · simp
    · split
      · simp
      · have hb : b = 0 := by omega
        simp [hb]

/-- `asr` is floor division (R14). -/
theorem asr_eq (n : Int) (k : Nat) : asr n k = n / 2 ^ k := by
  have h : (0 : Int) ≤ 2 ^ k := by positivity
  simp [asr, Int.fdiv_eq_ediv_of_nonneg n h]

@[simp] theorem shl_F (n : Int) : shl n Config.F = n * 256 := rfl

theorem roundShift_floor (n : Int) : roundShift .floor n = n / 256 := by
  simp only [roundShift, asr_eq]
  rfl

theorem roundShift_trunc (n : Int) : roundShift .trunc n = Int.tdiv n 256 := by
  simp only [roundShift, tdiv_eq]
  rfl

/-- `val_24(enc_24(n)) = n` for `n` in range (R8). -/
theorem toInt_enc24 (n : Int) (h₁ : -8388608 ≤ n) (h₂ : n ≤ 8388607) : (enc24 n).toInt = n := by
  simp only [enc24, BitVec.toInt_ofInt, Int.bmod_def]
  omega

theorem enc24_toInt (v : Word) : enc24 v.toInt = v := by
  simp [enc24]

end Sys2Proof.Machine
end

