-- ==== Sys2Proof/Laws/State.lean ====
section
/-! SUPPORT. One lemma per field per update of State, and the operations' small lemmas. -/

namespace Sys2Proof.Machine

@[simp] theorem State.setR_op (s : State) (v : Word) : (s.setR v).op = s.op := rfl
@[simp] theorem State.setR_p0 (s : State) (v : Word) : (s.setR v).p0 = s.p0 := rfl
@[simp] theorem State.setR_p1 (s : State) (v : Word) : (s.setR v).p1 = s.p1 := rfl
@[simp] theorem State.setR_p2 (s : State) (v : Word) : (s.setR v).p2 = s.p2 := rfl
@[simp] theorem State.setR_p3 (s : State) (v : Word) : (s.setR v).p3 = s.p3 := rfl
@[simp] theorem State.setR_p4 (s : State) (v : Word) : (s.setR v).p4 = s.p4 := rfl
@[simp] theorem State.setR_r (s : State) (v : Word) : (s.setR v).r = v := rfl
@[simp] theorem State.setR_build (s : State) (v : Word) : (s.setR v).build = s.build := rfl
@[simp] theorem State.setR_port (s : State) (v : Word) (p : Port) : (s.setR v).port p = s.port p := by cases p <;> rfl
@[simp] theorem State.setR_inputs (s : State) (v : Word) : (s.setR v).inputs = s.inputs := rfl
@[simp] theorem State.setR_commandCode (s : State) (v : Word) : (s.setR v).commandCode = s.commandCode := rfl
@[simp] theorem State.setR_setR (s : State) (v w : Word) : (s.setR v).setR w = s.setR w := rfl
@[simp] theorem State.setR_self (s : State) : s.setR s.r = s := rfl

@[simp] theorem State.drive_op (s : State) (x : Inputs) : (s.drive x).op = x.op := rfl
@[simp] theorem State.drive_p0 (s : State) (x : Inputs) : (s.drive x).p0 = x.p0 := rfl
@[simp] theorem State.drive_p1 (s : State) (x : Inputs) : (s.drive x).p1 = x.p1 := rfl
@[simp] theorem State.drive_p2 (s : State) (x : Inputs) : (s.drive x).p2 = x.p2 := rfl
@[simp] theorem State.drive_p3 (s : State) (x : Inputs) : (s.drive x).p3 = x.p3 := rfl
@[simp] theorem State.drive_p4 (s : State) (x : Inputs) : (s.drive x).p4 = x.p4 := rfl
@[simp] theorem State.drive_r (s : State) (x : Inputs) : (s.drive x).r = s.r := rfl
@[simp] theorem State.drive_build (s : State) (x : Inputs) : (s.drive x).build = s.build := rfl
@[simp] theorem State.drive_inputs (s : State) (x : Inputs) : (s.drive x).inputs = x := rfl
@[simp] theorem State.drive_commandCode (s : State) (x : Inputs) : (s.drive x).commandCode = x.op := rfl
@[simp] theorem State.drive_drive (s : State) (x y : Inputs) : (s.drive x).drive y = s.drive y := rfl
@[simp] theorem State.drive_self (s : State) : s.drive s.inputs = s := rfl
theorem State.drive_setR (s : State) (v : Word) (x : Inputs) : (s.setR v).drive x = (s.drive x).setR v := rfl

@[simp] theorem State.setPort_op (s : State) (p : Port) (v : Word) : (s.setPort p v).op = s.op := by cases p <;> rfl
@[simp] theorem State.setPort_r (s : State) (p : Port) (v : Word) : (s.setPort p v).r = s.r := by cases p <;> rfl
@[simp] theorem State.setPort_build (s : State) (p : Port) (v : Word) : (s.setPort p v).build = s.build := by
  cases p <;> rfl
@[simp] theorem State.setPort_port_same (s : State) (p : Port) (v : Word) : (s.setPort p v).port p = v := by
  cases p <;> rfl
theorem State.setPort_port_other (s : State) (p q : Port) (v : Word) (h : q ≠ p) :
    (s.setPort p v).port q = s.port q := by
  cases p <;> cases q <;> first | rfl | exact absurd rfl h

@[simp] theorem State.powerUp_build (b : Build) : (State.powerUp b).build = b := rfl
@[simp] theorem State.powerUp_r (b : Build) : (State.powerUp b).r = 0 := rfl
@[simp] theorem State.powerUp_op (b : Build) : (State.powerUp b).op = 0 := rfl

@[simp] theorem State.withFetchWord_build (s : State) (nbits w : Nat) : (s.withFetchWord nbits w).build = s.build := rfl
@[simp] theorem State.withFetchWord_r (s : State) (nbits w : Nat) : (s.withFetchWord nbits w).r = s.r := rfl

end Sys2Proof.Machine
end

