-- ==== Sys2Proof/Laws/Ops.lean ====
section
/-! SUPPORT. What the shared operations can do, said once: operands and their ranges, the range of every arithmetic
operation, and the end of a command. -/

namespace Sys2Proof.Machine

/-- A 7p8 operand is `val_16` of the low half of its port (R39). -/
theorem operand_q7p8 (p : Port) (s : State) : operand .q7p8 p s = ((s.port p).setWidth 16).toInt := by
  rw [operand, BitVec.setWidth_eq_extractLsb' (by decide)]
  rfl

/-- A 15p8 operand is `val_24` of its whole port (R39). -/
theorem operand_q15p8 (p : Port) (s : State) : operand .q15p8 p s = (s.port p).toInt := by
  show ((s.port p).extractLsb' 0 24).toInt = _
  rw [← BitVec.setWidth_eq_extractLsb' (by decide), BitVec.setWidth_eq]

/-- An operand is in its format's range (R34 to R36). -/
theorem operand_mem (f : Fmt) (p : Port) (s : State) :
    minOf f.width ≤ operand f p s ∧ operand f p s ≤ maxOf f.width := by
  cases f
  · have h₁ := BitVec.le_toInt ((s.port p).setWidth 16)
    have h₂ := BitVec.toInt_lt (x := (s.port p).setWidth 16)
    rw [operand_q7p8]
    simp only [width_q7p8, minOf_16, maxOf_16]
    omega
  · have h₁ := BitVec.le_toInt (s.port p)
    have h₂ := BitVec.toInt_lt (x := s.port p)
    rw [operand_q15p8]
    simp only [width_q15p8, minOf_24, maxOf_24]
    omega

@[simp] theorem operand_setR (f : Fmt) (p : Port) (s : State) (v : Word) : operand f p (s.setR v) = operand f p s := by
  simp [operand]

theorem divideByZero_mem (f : Fmt) (a : Int) :
    minOf f.width ≤ divideByZero f a ∧ divideByZero f a ≤ maxOf f.width := by
  have h := minOf_le_maxOf f.width
  unfold divideByZero
  split <;> omega

theorem qadd_mem (f : Fmt) (a b : Int) : minOf f.width ≤ qadd f a b ∧ qadd f a b ≤ maxOf f.width :=
  ⟨minOf_le_sat _ _, sat_le_maxOf _ _⟩

theorem qsub_mem (f : Fmt) (a b : Int) : minOf f.width ≤ qsub f a b ∧ qsub f a b ≤ maxOf f.width :=
  ⟨minOf_le_sat _ _, sat_le_maxOf _ _⟩

theorem qmul_mem (f : Fmt) (m : Rounding) (a b : Int) :
    minOf f.width ≤ qmul f m a b ∧ qmul f m a b ≤ maxOf f.width :=
  wrap_mem f _

theorem qdiv_mem (f : Fmt) (a b : Int) : minOf f.width ≤ qdiv f a b ∧ qdiv f a b ≤ maxOf f.width := by
  unfold qdiv
  split
  · exact divideByZero_mem f a
  · exact ⟨minOf_le_sat _ _, sat_le_maxOf _ _⟩

theorem qneg_mem (f : Fmt) (a : Int) : minOf f.width ≤ qneg f a ∧ qneg f a ≤ maxOf f.width :=
  ⟨minOf_le_sat _ _, sat_le_maxOf _ _⟩

theorem qlerp_mem (f : Fmt) (m : Rounding) (x lx ly rx ry : Int) (h₁ : minOf f.width ≤ ly) (h₂ : ly ≤ maxOf f.width) :
    minOf f.width ≤ qlerp f m x lx ly rx ry ∧ qlerp f m x lx ly rx ry ≤ maxOf f.width := by
  unfold qlerp
  dsimp only
  split
  · exact ⟨h₁, h₂⟩
  · exact qadd_mem f _ _

/-- A command ends by driving `R`; nothing else of the block changes (R40, R42). -/
theorem driveR_next (n : Int) (s t : State) : driveR n s = .next t ↔ t = s.setR (enc24 n) := by
  simp only [driveR, Host.Outcome.next.injEq]
  exact eq_comm

/-- A command that needs the 15p8 multiply answers only where the build has it (R87). -/
theorem whenMul15_next (i : Instr) (s t : State) (k : Host.Outcome State Fault Refusal) :
    whenMul15 i s k = .next t ↔ s.build.mul15Present = true ∧ k = .next t := by
  unfold whenMul15
  split <;> simp_all

end Sys2Proof.Machine
end

