-- ==== Sys2Proof/Laws/PerInstr.lean ====
section
/-! SUPPORT. The family CodeFields: for each command, that its code has reserved bits `000` and carries its own `FMT` and
`FN`, and that R83's table reads these two fields back as the command (R81 to R83). -/

namespace Sys2Proof.Laws.CodeFields

/-- The fields of a command's code. -/
def Statement (i : Instr) : Prop :=
  fieldRsv (encode i) = 0 ∧ fieldFmt (encode i) = i.fmt ∧ fieldFn (encode i) = i.fn ∧ commandOf i.fmt i.fn = some i

theorem qadd7 : Statement .qadd7 := by unfold Statement; decide
theorem qsub7 : Statement .qsub7 := by unfold Statement; decide
theorem qmul7 : Statement .qmul7 := by unfold Statement; decide
theorem qdiv7 : Statement .qdiv7 := by unfold Statement; decide
theorem qneg7 : Statement .qneg7 := by unfold Statement; decide
theorem qabs7 : Statement .qabs7 := by unfold Statement; decide
theorem qcmp7 : Statement .qcmp7 := by unfold Statement; decide
theorem qwid : Statement .qwid := by unfold Statement; decide
theorem qfint7 : Statement .qfint7 := by unfold Statement; decide
theorem qfrac7 : Statement .qfrac7 := by unfold Statement; decide
theorem qtint7 : Statement .qtint7 := by unfold Statement; decide
theorem qlerp7 : Statement .qlerp7 := by unfold Statement; decide
theorem qadd15 : Statement .qadd15 := by unfold Statement; decide
theorem qsub15 : Statement .qsub15 := by unfold Statement; decide
theorem qmul15 : Statement .qmul15 := by unfold Statement; decide
theorem qdiv15 : Statement .qdiv15 := by unfold Statement; decide
theorem qneg15 : Statement .qneg15 := by unfold Statement; decide
theorem qabs15 : Statement .qabs15 := by unfold Statement; decide
theorem qcmp15 : Statement .qcmp15 := by unfold Statement; decide
theorem qnar : Statement .qnar := by unfold Statement; decide
theorem qfint15 : Statement .qfint15 := by unfold Statement; decide
theorem qfrac15 : Statement .qfrac15 := by unfold Statement; decide
theorem qtint15 : Statement .qtint15 := by unfold Statement; decide
theorem qlerp15 : Statement .qlerp15 := by unfold Statement; decide

end Sys2Proof.Laws.CodeFields
end

