-- ==== Sys2Proof/Laws/Step.lean ====
section
/-! SUPPORT. A step and a run, unfolded once. -/

namespace Sys2Proof.Machine

/-- There is no fault (R300). -/
theorem outcome_cases {σ ρ : Type} (o : Host.Outcome σ Fault ρ) :
    (∃ s, o = .next s) ∨ (∃ why, o = .refused why) := by
  cases o with
  | next s => exact .inl ⟨s, rfl⟩
  | fault f => exact nomatch f
  | refused why => exact .inr ⟨why, rfl⟩

/-- A step whose code is reserved is refused by that name (R87). -/
theorem step_of_reserved (s : State) (why : ReservedCode) (h : decode s.build s.op = .error why) :
    step s = .refused (.reservedCode why) := by
  unfold step State.commandCode
  rw [h]

@[simp] theorem core_run_zero (s : State) : core.run 0 s = .next s := rfl

theorem run_of_next (M : Host.Core) (n : Nat) (s s' : M.State) (h : M.step s = .next s') :
    M.run (n + 1) s = M.run n s' := by
  simp only [Host.Core.run, h]

theorem run_of_refused (M : Host.Core) (n : Nat) (s : M.State) (why : M.Refusal) (h : M.step s = .refused why) :
    M.run (n + 1) s = .refused why := by
  simp only [Host.Core.run, h]

theorem core_run_of_next (n : Nat) (s s' : State) (h : step s = .next s') : core.run (n + 1) s = core.run n s' :=
  run_of_next core n s s' h

theorem core_run_of_refused (n : Nat) (s : State) (why : Refusal) (h : step s = .refused why) :
    core.run (n + 1) s = .refused why :=
  run_of_refused core n s why h

theorem respond_of_next (b : Build) (x : Inputs) (s : State) (h : step ((State.powerUp b).drive x) = .next s) :
    respond b x = some s.r := by
  rw [respond, h]

theorem respond_of_refused (b : Build) (x : Inputs) (why : Refusal)
    (h : step ((State.powerUp b).drive x) = .refused why) : respond b x = none := by
  rw [respond, h]

/-- Presenting inputs drives them, whether or not that is a change. -/
@[simp] theorem present_block (t : Timed) (x : Inputs) : (t.present x).block = t.block.drive x := by
  unfold Timed.present
  split
  · next h => subst h; rfl
  · rfl

@[simp] theorem present_draws (t : Timed) (x : Inputs) : (t.present x).draws = t.draws := by
  unfold Timed.present
  split <;> rfl

@[simp] theorem hold_block (t : Timed) (n : Nat) : (t.hold n).block = t.block := rfl

@[simp] theorem hold_draws (t : Timed) (n : Nat) : (t.hold n).draws = t.draws := rfl

@[simp] theorem hold_heldFor (t : Timed) (n : Nat) : (t.hold n).heldFor = t.heldFor + n := rfl

/-- What a read of any value does: one free value on `R`, the model's counter on by one, nothing else. -/
theorem sampleAnyValue_frame (t : Timed) :
    t.sampleAnyValue.block.r = Config.unsettledR t.draws ∧ t.sampleAnyValue.block.inputs = t.block.inputs ∧
    t.sampleAnyValue.block.build = t.block.build ∧ t.sampleAnyValue.heldFor = t.heldFor ∧
    t.sampleAnyValue.draws = t.draws + 1 := ⟨rfl, rfl, rfl, rfl, rfl⟩

/-- A code whose inputs stand on the ports samples them. -/
theorem sampleFor_of_driven (t : Timed) (x : Inputs) (h : t.block.inputs = x) : t.sampleFor x = t.sample := if_pos h

/-- A code whose inputs another has replaced reads any value (I9). -/
theorem sampleFor_of_replaced (t : Timed) (x : Inputs) (h : t.block.inputs ≠ x) :
    t.sampleFor x = .next t.sampleAnyValue := if_neg h

end Sys2Proof.Machine
end

