-- ==== Sys2Proof/Tests/Slice0.lean ====
section
/-! SUPPORT. Tests: words written out from R81 to R86, vectors V<n> of 95_test_vectors.md, and a witness for the hypotheses
of every statement that has some. No expected value comes from the model. -/

namespace Sys2Proof.Tests

open Sys2Proof.Machine Sys2Proof.Claims

/-- The spec's default build with one parameter changed (R5). -/
def truncating : Build := { Build.default with mulRound := .trunc, tointRound := .trunc }

def wrapping : Build := { Build.default with narrowPolicy := .wrap }

def withoutMul15 : Build := { Build.default with mul15Present := false }

/-! ### The code of each command, bit by bit: `000`, FMT, FN (R81 to R83) -/

theorem test_decode_qadd7 : decode Build.default 0b00000000#8 = .ok .qadd7 := by decide
theorem test_decode_qsub7 : decode Build.default 0b00000001#8 = .ok .qsub7 := by decide
theorem test_decode_qmul7 : decode Build.default 0b00000010#8 = .ok .qmul7 := by decide
theorem test_decode_qdiv7 : decode Build.default 0b00000011#8 = .ok .qdiv7 := by decide
theorem test_decode_qneg7 : decode Build.default 0b00000100#8 = .ok .qneg7 := by decide
theorem test_decode_qabs7 : decode Build.default 0b00000101#8 = .ok .qabs7 := by decide
theorem test_decode_qcmp7 : decode Build.default 0b00000110#8 = .ok .qcmp7 := by decide
theorem test_decode_qwid : decode Build.default 0b00000111#8 = .ok .qwid := by decide
theorem test_decode_qfint7 : decode Build.default 0b00001000#8 = .ok .qfint7 := by decide
theorem test_decode_qfrac7 : decode Build.default 0b00001001#8 = .ok .qfrac7 := by decide
theorem test_decode_qtint7 : decode Build.default 0b00001010#8 = .ok .qtint7 := by decide
theorem test_decode_qlerp7 : decode Build.default 0b00001011#8 = .ok .qlerp7 := by decide
theorem test_decode_qadd15 : decode Build.default 0b00010000#8 = .ok .qadd15 := by decide
theorem test_decode_qsub15 : decode Build.default 0b00010001#8 = .ok .qsub15 := by decide
theorem test_decode_qmul15 : decode Build.default 0b00010010#8 = .ok .qmul15 := by decide
theorem test_decode_qdiv15 : decode Build.default 0b00010011#8 = .ok .qdiv15 := by decide
theorem test_decode_qneg15 : decode Build.default 0b00010100#8 = .ok .qneg15 := by decide
theorem test_decode_qabs15 : decode Build.default 0b00010101#8 = .ok .qabs15 := by decide
theorem test_decode_qcmp15 : decode Build.default 0b00010110#8 = .ok .qcmp15 := by decide
theorem test_decode_qnar : decode Build.default 0b00010111#8 = .ok .qnar := by decide
theorem test_decode_qfint15 : decode Build.default 0b00011000#8 = .ok .qfint15 := by decide
theorem test_decode_qfrac15 : decode Build.default 0b00011001#8 = .ok .qfrac15 := by decide
theorem test_decode_qtint15 : decode Build.default 0b00011010#8 = .ok .qtint15 := by decide
theorem test_decode_qlerp15 : decode Build.default 0b00011011#8 = .ok .qlerp15 := by decide

/-! ### Ill-formed and reserved -/

theorem test_qmul15_ill_formed_without_mul15 : Instr.wellFormed withoutMul15 .qmul15 = false := by decide
theorem test_qlerp15_ill_formed_without_mul15 : Instr.wellFormed withoutMul15 .qlerp15 = false := by decide
theorem test_decode_rejects_absent : decode withoutMul15 0x12 = .error (.mul15Absent 0x12) ∧
    decode withoutMul15 0x1B = .error (.mul15Absent 0x1B) := by decide
/-- V146 to V149. -/
theorem test_decode_rejects_reserved : decode Build.default 0x0C = .error (.reservedFunction 0x0C) ∧
    decode Build.default 0x1F = .error (.reservedFunction 0x1F) ∧
    decode Build.default 0x20 = .error (.reservedBits 0x20) ∧
    decode Build.default 0xFF = .error (.reservedBits 0xFF) := by decide
/-- V59. -/
theorem test_respond_refuses_absent : respond withoutMul15 ⟨0x12, 0x000200, 0x000300, 0, 0, 0⟩ = none := by decide
theorem test_table_word : decodeTableWord 8 0x1B = some .qlerp15 ∧ decodeTableWord 8 0x20 = none ∧
    (State.reset.withFetchWord 8 0x17).op = 0x17 := by decide

/-! ### Vectors of 95_test_vectors.md; ports a command does not read hold other bits (R93) -/

/-- V4: QADD7. -/
theorem test_V4_qadd7 : respond Build.default ⟨0x00, 0x8000, 0xFFFF, 0xABCDEF, 0xABCDEF, 0xABCDEF⟩ = some 0xFF8000 := by decide
/-- V7: QADD7. -/
theorem test_V7_qadd7 : respond Build.default ⟨0x00, 0x120100, 0x340200, 0xABCDEF, 0xABCDEF, 0xABCDEF⟩ = some 0x000300 := by decide
/-- V8: QSUB7. -/
theorem test_V8_qsub7 : respond Build.default ⟨0x01, 0x0100, 0x0200, 0xABCDEF, 0xABCDEF, 0xABCDEF⟩ = some 0xFFFF00 := by decide
/-- V11: QSUB7. -/
theorem test_V11_qsub7 : respond Build.default ⟨0x01, 0x0000, 0x8000, 0xABCDEF, 0xABCDEF, 0xABCDEF⟩ = some 0x007FFF := by decide
/-- V16: QMUL7. -/
theorem test_V16_qmul7 : respond Build.default ⟨0x02, 0xFFFF, 0x0001, 0xABCDEF, 0xABCDEF, 0xABCDEF⟩ = some 0xFFFFFF := by decide
/-- V17: QMUL7. -/
theorem test_V17_qmul7 : respond truncating ⟨0x02, 0xFFFF, 0x0001, 0xABCDEF, 0xABCDEF, 0xABCDEF⟩ = some 0x000000 := by decide
/-- V18: QMUL7. -/
theorem test_V18_qmul7 : respond Build.default ⟨0x02, 0x1000, 0x0800, 0xABCDEF, 0xABCDEF, 0xABCDEF⟩ = some 0xFF8000 := by decide
/-- V25: QDIV7. -/
theorem test_V25_qdiv7 : respond Build.default ⟨0x03, 0xFF00, 0x0300, 0xABCDEF, 0xABCDEF, 0xABCDEF⟩ = some 0xFFFFAB := by decide
/-- V28: QDIV7. -/
theorem test_V28_qdiv7 : respond Build.default ⟨0x03, 0xFB00, 0x0000, 0xABCDEF, 0xABCDEF, 0xABCDEF⟩ = some 0xFF8000 := by decide
/-- V29: QDIV7. -/
theorem test_V29_qdiv7 : respond Build.default ⟨0x03, 0x8000, 0xFF00, 0xABCDEF, 0xABCDEF, 0xABCDEF⟩ = some 0x007FFF := by decide
/-- V34: QNEG7. -/
theorem test_V34_qneg7 : respond Build.default ⟨0x04, 0x8000, 0xABCDEF, 0xABCDEF, 0xABCDEF, 0xABCDEF⟩ = some 0x007FFF := by decide
/-- V35: QNEG7. -/
theorem test_V35_qneg7 : respond Build.default ⟨0x04, 0x7FFF, 0xABCDEF, 0xABCDEF, 0xABCDEF, 0xABCDEF⟩ = some 0xFF8001 := by decide
/-- V38: QABS7. -/
theorem test_V38_qabs7 : respond Build.default ⟨0x05, 0x8000, 0xABCDEF, 0xABCDEF, 0xABCDEF, 0xABCDEF⟩ = some 0x007FFF := by decide
/-- V40: QCMP7. -/
theorem test_V40_qcmp7 : respond Build.default ⟨0x06, 0x8000, 0x7FFF, 0xABCDEF, 0xABCDEF, 0xABCDEF⟩ = some 0xFFFFFF := by decide
/-- V43: QCMP7. -/
theorem test_V43_qcmp7 : respond Build.default ⟨0x06, 0x120100, 0x340100, 0xABCDEF, 0xABCDEF, 0xABCDEF⟩ = some 0x000000 := by decide
/-- V46: QADD15. -/
theorem test_V46_qadd15 : respond Build.default ⟨0x10, 0x007F00, 0x000100, 0xABCDEF, 0xABCDEF, 0xABCDEF⟩ = some 0x008000 := by decide
/-- V47: QADD15. -/
theorem test_V47_qadd15 : respond Build.default ⟨0x10, 0x800000, 0xFFFFFF, 0xABCDEF, 0xABCDEF, 0xABCDEF⟩ = some 0x800000 := by decide
/-- V49: QSUB15. -/
theorem test_V49_qsub15 : respond Build.default ⟨0x11, 0x000000, 0x800000, 0xABCDEF, 0xABCDEF, 0xABCDEF⟩ = some 0x7FFFFF := by decide
/-- V52: QMUL15. -/
theorem test_V52_qmul15 : respond Build.default ⟨0x12, 0x00C800, 0x006400, 0xABCDEF, 0xABCDEF, 0xABCDEF⟩ = some 0x4E2000 := by decide
/-- V54: QMUL15. -/
theorem test_V54_qmul15 : respond truncating ⟨0x12, 0xFFFFFF, 0x000001, 0xABCDEF, 0xABCDEF, 0xABCDEF⟩ = some 0x000000 := by decide
/-- V58: QMUL15. -/
theorem test_V58_qmul15 : respond Build.default ⟨0x12, 0x010000, 0x008000, 0xABCDEF, 0xABCDEF, 0xABCDEF⟩ = some 0x800000 := by decide
/-- V62: QDIV15. -/
theorem test_V62_qdiv15 : respond Build.default ⟨0x13, 0xFFFF00, 0x000300, 0xABCDEF, 0xABCDEF, 0xABCDEF⟩ = some 0xFFFFAB := by decide
/-- V65: QDIV15. -/
theorem test_V65_qdiv15 : respond Build.default ⟨0x13, 0x800000, 0xFFFF00, 0xABCDEF, 0xABCDEF, 0xABCDEF⟩ = some 0x7FFFFF := by decide
/-- V67: QNEG15. -/
theorem test_V67_qneg15 : respond Build.default ⟨0x14, 0x800000, 0xABCDEF, 0xABCDEF, 0xABCDEF, 0xABCDEF⟩ = some 0x7FFFFF := by decide
/-- V69: QABS15. -/
theorem test_V69_qabs15 : respond Build.default ⟨0x15, 0x800000, 0xABCDEF, 0xABCDEF, 0xABCDEF, 0xABCDEF⟩ = some 0x7FFFFF := by decide
/-- V68: QABS15. -/
theorem test_V68_qabs15 : respond Build.default ⟨0x15, 0xFFFC67, 0xABCDEF, 0xABCDEF, 0xABCDEF, 0xABCDEF⟩ = some 0x000399 := by decide
/-- V70: QCMP15. -/
theorem test_V70_qcmp15 : respond Build.default ⟨0x16, 0x800000, 0x7FFFFF, 0xABCDEF, 0xABCDEF, 0xABCDEF⟩ = some 0xFFFFFF := by decide
/-- V71: QCMP15. -/
theorem test_V71_qcmp15 : respond Build.default ⟨0x16, 0x008000, 0x007F00, 0xABCDEF, 0xABCDEF, 0xABCDEF⟩ = some 0x000001 := by decide
/-- V76: QFINT7. -/
theorem test_V76_qfint7 : respond Build.default ⟨0x08, 0xFF80, 0xABCDEF, 0xABCDEF, 0xABCDEF, 0xABCDEF⟩ = some 0xFF8000 := by decide
/-- V77: QFINT7. -/
theorem test_V77_qfint7 : respond Build.default ⟨0x08, 0xFF7F, 0xABCDEF, 0xABCDEF, 0xABCDEF, 0xABCDEF⟩ = some 0xFF8000 := by decide
/-- V81: QFINT15. -/
theorem test_V81_qfint15 : respond Build.default ⟨0x18, 0x008000, 0xABCDEF, 0xABCDEF, 0xABCDEF, 0xABCDEF⟩ = some 0x7FFFFF := by decide
/-- V82: QFINT15. -/
theorem test_V82_qfint15 : respond Build.default ⟨0x18, 0xFF8000, 0xABCDEF, 0xABCDEF, 0xABCDEF, 0xABCDEF⟩ = some 0x800000 := by decide
/-- V90: QFRAC7. -/
theorem test_V90_qfrac7 : respond Build.default ⟨0x09, 0xFFEE, 0x0005, 0xABCDEF, 0xABCDEF, 0xABCDEF⟩ = some 0xFFFC67 := by decide
/-- R193's pseudocode at 200 over 2, by hand: `51200 / 2 = 25600`. R198's aside says MAX there: log entry 11. -/
theorem test_qfrac7_follows_R193 : respond Build.default ⟨0x09, 0x00C8, 0x0002, 0xABCDEF, 0xABCDEF, 0xABCDEF⟩ = some 0x006400 := by decide
/-- V99: QFRAC15. -/
theorem test_V99_qfrac15 : respond Build.default ⟨0x19, 0xFFFFEE, 0x000005, 0xABCDEF, 0xABCDEF, 0xABCDEF⟩ = some 0xFFFC67 := by decide
/-- V101: QFRAC15. -/
theorem test_V101_qfrac15 : respond Build.default ⟨0x19, 0xFFFFF9, 0x000000, 0xABCDEF, 0xABCDEF, 0xABCDEF⟩ = some 0x800000 := by decide
/-- V104: QTINT7. -/
theorem test_V104_qtint7 : respond Build.default ⟨0x0A, 0xFE80, 0xABCDEF, 0xABCDEF, 0xABCDEF, 0xABCDEF⟩ = some 0xFFFFFE := by decide
/-- V105: QTINT7. -/
theorem test_V105_qtint7 : respond truncating ⟨0x0A, 0xFE80, 0xABCDEF, 0xABCDEF, 0xABCDEF, 0xABCDEF⟩ = some 0xFFFFFF := by decide
/-- V109: QTINT15. -/
theorem test_V109_qtint15 : respond Build.default ⟨0x1A, 0x800000, 0xABCDEF, 0xABCDEF, 0xABCDEF, 0xABCDEF⟩ = some 0xFF8000 := by decide
/-- V111: QTINT15. -/
theorem test_V111_qtint15 : respond Build.default ⟨0x1A, 0xFFFE80, 0xABCDEF, 0xABCDEF, 0xABCDEF, 0xABCDEF⟩ = some 0xFFFFFE := by decide
/-- V114: QWID. -/
theorem test_V114_qwid : respond Build.default ⟨0x07, 0x8000, 0xABCDEF, 0xABCDEF, 0xABCDEF, 0xABCDEF⟩ = some 0xFF8000 := by decide
/-- V115: QWID. -/
theorem test_V115_qwid : respond Build.default ⟨0x07, 0xAB8000, 0xABCDEF, 0xABCDEF, 0xABCDEF, 0xABCDEF⟩ = some 0xFF8000 := by decide
/-- V118: QNAR. -/
theorem test_V118_qnar : respond Build.default ⟨0x17, 0x008000, 0xABCDEF, 0xABCDEF, 0xABCDEF, 0xABCDEF⟩ = some 0x007FFF := by decide
/-- V119: QNAR. -/
theorem test_V119_qnar : respond wrapping ⟨0x17, 0x008000, 0xABCDEF, 0xABCDEF, 0xABCDEF, 0xABCDEF⟩ = some 0xFF8000 := by decide
/-- V133: QLERP7. -/
theorem test_V133_qlerp7 : respond Build.default ⟨0x0B, 0x0300, 0x0000, 0x0000, 0x0300, 0x0100⟩ = some 0x0000FF := by decide
/-- V141: QLERP7. -/
theorem test_V141_qlerp7 : respond Build.default ⟨0x0B, 0x0000, 0x8000, 0x8000, 0x7F00, 0x7F00⟩ = some 0xFFFFFF := by decide
/-- V143: QLERP15. -/
theorem test_V143_qlerp15 : respond Build.default ⟨0x1B, 0x006400, 0x000000, 0x000000, 0x000100, 0x006400⟩ = some 0x271000 := by decide
/-- V144: QLERP15. -/
theorem test_V144_qlerp15 : respond Build.default ⟨0x1B, 0x000500, 0x000700, 0x000100, 0x000700, 0x000300⟩ = some 0x000100 := by decide

/-! ### The host -/

/-- Step 1 of program P1: `a = QFRAC7 7, 3`, with name 0 for `a`. -/
theorem test_line_of_P1 :
    (match Sequencer.next [.command 0 .qfrac7 [.integer 7, .integer 3]] ⟨State.reset, [], 0, false⟩ with
      | .ok h => h.held
      | .error _ => []) = [(0, 0x000255)] := by decide

/-- Step 6 of program P4: `if c = -1 goto loop` with `c = 0xFFFFFF` is taken. -/
theorem test_branch_of_P4 :
    (match Sequencer.next [.ifGoto 0 .eq (-1) 7] ⟨State.reset, [(0, 0xFFFFFF)], 0, false⟩ with
      | .ok h => h.line
      | .error _ => 0) = 7 := by decide

/-! ### Witnesses: a concrete state and operands for the hypotheses of each statement -/

theorem wit_MultiplyShiftsThenWraps :
    State.reset.build.mul15Present = true ∧ State.reset.op = 0x00 ∧ (State.reset.withFetchWord 8 0x12).op = 0x12 ∧
    (State.powerUp withoutMul15).build.mul15Present = false ∧
    ((State.powerUp withoutMul15).withFetchWord 8 0x12).op = 0x12 := by decide

theorem wit_InterpolationFollowsFormula :
    (State.reset.withFetchWord 8 0x1B).op = 0x1B ∧ (State.reset.withFetchWord 8 0x1B).build.mul15Present = true ∧
    ((State.powerUp withoutMul15).withFetchWord 8 0x1B).op = 0x1B ∧
    ((State.powerUp withoutMul15).withFetchWord 8 0x1B).build.mul15Present = false := by decide

/-- The code clause of the single commands: each code can stand on `OP`. -/
theorem wit_Drives_code (i : Instr) : (State.reset.withFetchWord 8 (encode i).toNat).op = encode i := by
  cases i <;> decide

/-- Both kinds of interval: `dx = 0`, and `dx ≠ 0` where the differences saturate (V139, V141). -/
theorem wit_InterpolationEqualsItsCommands :
    Build.default.mul15Present = true ∧
    respond Build.default ⟨0x01, 0x0200, 0x0200, 0, 0, 0⟩ = some 0 ∧
    respond Build.default ⟨0x01, 0x7F00, 0x8000, 0, 0, 0⟩ = some 0x007FFF ∧
    respond Build.default ⟨0x11, 0x000700, 0x000700, 0, 0, 0⟩ = some 0 ∧
    respond Build.default ⟨0x11, 0x000300, 0x000100, 0, 0, 0⟩ = some 0x000200 := by decide

theorem wit_DecodeAndEncodeAgree :
    Instr.wellFormed Build.default .qmul15 = true ∧ Instr.wellFormed withoutMul15 .qmul15 = false ∧
    decode Build.default 0x1B = .ok .qlerp15 := by decide

theorem wit_StepRunsDecodedCommand :
    decode State.reset.build State.reset.op = .ok .qadd7 ∧ State.reset.op = encode .qadd7 ∧
    Instr.wellFormed State.reset.build .qadd7 = true := by decide

/-- A code of each kind that StepRefusesExactlyReservedCodes speaks of, at the ends of its ranges: present and absent. -/
theorem wit_StepRefusesExactlyReservedCodes :
    ([0x0C, 0x0F, 0x1C, 0x1F, 0x20, 0xFF] : List Byte).all (fun op => !(decode Build.default op).isOk) = true ∧
    ([0x12, 0x1B] : List Byte).all (fun op => !(decode withoutMul15 op).isOk) = true ∧
    ([0x00, 0x0B, 0x10, 0x11, 0x13, 0x1A] : List Byte).all (fun op => (decode withoutMul15 op).isOk) = true := by decide

theorem wit_EveryCommandCompletes (i : Instr) : i.wellFormed State.reset.build = true := by
  cases i <;> decide

theorem wit_OnlyResultPortChanges : ∃ t, exec .qlerp15 State.reset = .next t := ⟨_, rfl⟩

/-- Two different blocks that agree on what QNEG7 reads: bits 23:16 of `P0`, `P1` and `R` differ. -/
theorem wit_AnswerDependsOnlyOnReadBits :
    agreeOnRead .qneg7 { State.reset with p0 := 0x120399, p1 := 1 } { State.reset with p0 := 0x340399, r := 7 } = true := by
  decide

theorem wit_NoCommandDisturbsAnother (x y : Inputs) : [x, y].Perm [y, x] := List.Perm.swap y x []

theorem wit_EvaluationIsIdempotent : ∃ t, step (State.reset.withFetchWord 8 0x03) = .next t := ⟨_, rfl⟩

theorem wit_RunsKeepInputsAndBuild : ∃ t, core.run 1 State.reset = .next t := ⟨_, rfl⟩

theorem wit_StepKeepsResultInRange : State.reset.resultInRange = true ∧ ∃ t, step State.reset = .next t :=
  ⟨by decide, _, rfl⟩

theorem wit_SumAndProductCommute : Build.default.mul15Present = true := rfl

theorem wit_NeutralOperands :
    low16 0x008000 ≠ 0 ∧ (0x800000 : Word) ≠ 0 ∧ Build.default.mul15Present = true := by decide

/-- The operands next to the excluded one, and the excluded one. -/
theorem wit_NegationAndDifference :
    low16 0x008001 ≠ -32768 ∧ (0x800001 : Word) ≠ 0x800000 ∧ low16 0x008000 = -32768 ∧ low16 0x007FFF ≠ -32768 := by
  decide

/-- Sums and differences at both ends of the 7p8 range. -/
theorem wit_WideningCommutesWithSumAndDifference :
    low16 0x007FFE + low16 0x000001 = 32767 ∧ low16 0x008001 + low16 0x00FFFF = -32768 ∧
    low16 0x007FFE - low16 0x00FFFF = 32767 ∧ low16 0x008001 - low16 0x000001 = -32768 := by decide

theorem wit_IntegerRoundTrip : ((-128 : Int) ≤ -128 ∧ (-128 : Int) ≤ 127) ∧ ((-128 : Int) ≤ 127 ∧ (127 : Int) ≤ 127) ∧
    ((-32768 : Int) ≤ -32768 ∧ (-32768 : Int) ≤ 32767) ∧ ((-32768 : Int) ≤ 32767 ∧ (32767 : Int) ≤ 32767) := by decide

/-- The ends of the ranges and a zero denominator (V94). -/
theorem wit_FractionIsQuotientOfIntegers : ((-128 : Int) ≤ -3 ∧ (-3 : Int) ≤ 127) ∧ ((-128 : Int) ≤ 0 ∧ (0 : Int) ≤ 127) ∧
    respond Build.default ⟨0x09, 0xFFFD, 0x0000, 0, 0, 0⟩ = some 0xFF8000 := by decide

/-- A 15p8 value at each end of the 7p8 range, and one outside (V117, V118). -/
theorem wit_ConversionRoundTrip :
    BitVec.toInt (0xFF8000 : Word) = -32768 ∧ BitVec.toInt (0x007FFF : Word) = 32767 ∧
    BitVec.toInt (0x008000 : Word) = 32768 := by decide

/-- Each of the three hypotheses alone: a zero-width interval, the left end, a constant segment. -/
theorem wit_InterpolationAtLeftAndOnConstantSegments :
    (low16 0x000200 = low16 0x120200 ∧ low16 0x000100 ≠ low16 0x000200) ∧ Build.default.mul15Present = true := by decide

theorem wit_MultiplyRoundingsDifferByOneLsb :
    State.reset.build.mulRound = .floor ∧ (-1 : Int) % 256 ≠ 0 ∧ (-1 : Int) < 0 ∧ (-256 : Int) % 256 = 0 := by decide

/-- 1/2 + 1/4, 1/2 * 1/4, the product's lower bound, and 1/2 / 4 on stored integers. -/
theorem wit_RealNumberAccuracy :
    (minOf (Fmt.width .q7p8) ≤ 128 + 64 ∧ 128 + 64 ≤ maxOf (Fmt.width .q7p8)) ∧
    (minOf (Fmt.width .q7p8) * 256 ≤ 128 * 64 ∧ 128 * 64 ≤ maxOf (Fmt.width .q7p8) * 256) ∧
    (minOf (Fmt.width .q7p8) * 256 ≤ -32768 * 256 ∧ -32768 * 256 ≤ maxOf (Fmt.width .q7p8) * 256) ∧
    ((1024 : Int) ≠ 0 ∧ (minOf (Fmt.width .q7p8) : ℚ) ≤ realValue 128 / realValue 1024 * 256 ∧
      realValue 128 / realValue 1024 * 256 ≤ maxOf (Fmt.width .q7p8)) := by
  refine ⟨by decide, by decide, by decide, by decide, ?_, ?_⟩ <;> simp [realValue, Config.F] <;> norm_num

theorem wit_IntermediatesStayInBounds : operand .q7p8 .p1 { State.reset with p1 := 0xFFFFFF } ≠ 0 := by decide

/-- The least widths of R41's table. -/
theorem wit_FixedWidthDatapathAgrees : 17 ≤ 17 ∧ 32 ≤ 32 ∧ 25 ≤ 25 ∧ 48 ≤ 48 ∧ 33 ≤ 33 := by decide

/-- V13, held for exactly `T_PD`. -/
theorem wit_SampleAfterSettlingGivesAnswer :
    respond (Timed.powerUp Build.default).block.build ⟨0x02, 0x0080, 0x0040, 0, 0, 0⟩ = some 0x000020 ∧
    Config.T_PD Build.default ≤ Config.T_PD Build.default := ⟨by decide, Nat.le_refl _⟩

theorem wit_EarlySampleReadsAnyValue : (Timed.powerUp Build.default).block.commanded = true := by decide

/-- The two commands of program P6. -/
theorem wit_InterruptedCommandIsPresentedAgain :
    respond (Timed.powerUp Build.default).block.build ⟨0x02, 0x0080, 0x0040, 0, 0, 0⟩ = some 0x000020 ∧
    respond (Timed.powerUp Build.default).block.build ⟨0x00, 0x0100, 0x0200, 0, 0, 0⟩ = some 0x000300 ∧
    Config.T_PD Build.default ≤ Config.T_PD Build.default := ⟨by decide, by decide, Nat.le_refl _⟩

/-- Program P6: the two codes' inputs differ, and both commands answer. -/
theorem wit_InterruptedReadIsAnyValue :
    (⟨0x02, 0x0080, 0x0040, 0, 0, 0⟩ : Inputs) ≠ ⟨0x00, 0x0100, 0x0200, 0, 0, 0⟩ ∧
    respond (Timed.powerUp Build.default).block.build ⟨0x00, 0x0100, 0x0200, 0, 0, 0⟩ = some 0x000300 ∧
    respond (Timed.powerUp Build.default).block.build ⟨0x02, 0x0080, 0x0040, 0, 0, 0⟩ = some 0x000020 ∧
    Config.T_PD Build.default ≤ Config.T_PD Build.default := ⟨by decide, by decide, by decide, Nat.le_refl _⟩

theorem step_of_qadd7 (s : State) (hb : s.build = Build.default) (ho : s.op = 0x00) : step s = execQadd7 s := by
  unfold step State.commandCode
  rw [hb, ho, show decode Build.default 0x00 = .ok .qadd7 by decide]
  rfl

/-- Step 3 of program P1: `s = QADD7 a, b`, with names 0, 1 for `a`, `b`; and the compound form, `dst = a`. -/
theorem wit_HostLineBindsAnswer :
    Instr.ports .qadd7 = [.p0, .p1] ∧ lookupHeld [(0, 0x000255), (1, 0x000055)] 0 = some 0x000255 ∧
    lookupHeld [(0, 0x000255), (1, 0x000055)] 1 = some 0x000055 ∧
    Gives2 State.reset.build (encode .qadd7) 0x000255 0x000055 0x0002AA :=
  ⟨rfl, rfl, rfl, fun _ _ _ => (respond_of_next _ _ _ (step_of_qadd7 _ rfl rfl)).trans
    (show some (enc24 (qadd .q7p8 (BitVec.extractLsb' 0 16 (0x000255 : Word)).toInt
      (BitVec.extractLsb' 0 16 (0x000055 : Word)).toInt)) = some 0x0002AA by decide)⟩

theorem wit_ControlFlowLeavesBlockAlone :
    (∃ h', (Sequencer.mk State.reset [(0, 5)] 0 false).runLine (.copy 1 0) = .ok h') ∧
    (∃ h', (Sequencer.mk State.reset [(0, 5)] 0 false).runLine (.ifGoto 0 .ne 5 3) = .ok h') ∧
    (∃ h', (Sequencer.mk State.reset [] 0 false).runLine (.goto 3) = .ok h') ∧
    (∃ h', (Sequencer.mk State.reset [] 0 false).runLine .halt = .ok h') :=
  ⟨⟨_, rfl⟩, ⟨_, rfl⟩, ⟨_, rfl⟩, ⟨_, rfl⟩⟩

end Sys2Proof.Tests
end

section
/-! SUPPORT. R15's two roundings of the shift, and how far they and the other operations are from the real number the
operands give (R34, R35). -/

namespace Sys2Proof.Machine

open Sys2Proof.Claims

/-! ### The two roundings of the shift (R15) -/

/-- R15's comparison of the two roundings, said once. -/
theorem roundShift_trunc_eq_floor_add (n : Int) :
    roundShift .trunc n = roundShift .floor n + if 0 ≤ n ∨ n % 256 = 0 then 0 else 1 := by
  rw [roundShift_trunc, roundShift_floor, Int.tdiv_eq_ediv]
  simp only [Int.dvd_iff_emod_eq_zero]
  rfl

theorem operandA_q7p8 (s : State) : operandA .q7p8 s = low16 s.p0 := operand_q7p8 .p0 s

theorem operandB_q7p8 (s : State) : operandB .q7p8 s = low16 s.p1 := operand_q7p8 .p1 s

/-- QMUL7 always answers, and drives nothing but `R` (R113). -/
theorem exec_qmul7 (s : State) :
    exec .qmul7 s =
      .next { s with r := enc24 (qmul .q7p8 s.build.mulRound (low16 s.p0) (low16 s.p1)) } := by
  rw [← operandA_q7p8, ← operandB_q7p8]
  rfl

/-- A 7p8 product on `R` reads back as the balanced remainder of the shifted product (R8, R12, R113). -/
theorem toInt_enc24_qmul_q7p8 (m : Rounding) (a b : Int) :
    (enc24 (qmul .q7p8 m a b)).toInt = Int.bmod (roundShift m (a * b)) 65536 := by
  obtain ⟨hlo, hhi⟩ := qmul_mem .q7p8 m a b
  simp only [width_q7p8, minOf_16, maxOf_16] at hlo hhi
  rw [toInt_enc24 _ (by omega) (by omega), qmul, width_q7p8, wrap_16]

/-- Two products of the same operands, one under each `MUL_ROUND`, as they stand on `R` (R15, R113). -/
theorem qmul_q7p8_roundings (a b : Int) :
    if 0 ≤ a * b ∨ (a * b) % 256 = 0 then enc24 (qmul .q7p8 .trunc a b) = enc24 (qmul .q7p8 .floor a b)
    else (enc24 (qmul .q7p8 .trunc a b)).toInt = Int.bmod ((enc24 (qmul .q7p8 .floor a b)).toInt + 1) 65536 := by
  have h := roundShift_trunc_eq_floor_add (a * b)
  split_ifs at h ⊢ with hc
  · rw [qmul, qmul, h, add_zero]
  · rw [toInt_enc24_qmul_q7p8, toInt_enc24_qmul_q7p8, h, Int.bmod_add_bmod]

/-! ### Integers near a rational -/

/-- An integer less than 1 from a point between two integer bounds lies between them too. -/
theorem mem_of_abs_sub_lt_one {q lo hi : Int} {x : ℚ} (h : |x - q| < 1) (hlo : (lo : ℚ) ≤ x) (hhi : x ≤ hi) :
    lo ≤ q ∧ q ≤ hi := by
  obtain ⟨hl, hr⟩ := abs_lt.mp h
  constructor
  · have : (lo : ℚ) < (q + 1 : Int) := by push_cast; linarith
    exact Int.lt_add_one_iff.mp (Int.cast_lt.mp this)
  · have : (q : ℚ) < (hi + 1 : Int) := by push_cast; linarith
    exact Int.lt_add_one_iff.mp (Int.cast_lt.mp this)

/-- `tdiv` is no further from zero than the exact quotient (R13). -/
theorem abs_tdiv_le (n d : Int) : |(tdiv n d : ℚ)| ≤ |(n : ℚ) / d| := by
  rw [tdiv_eq, abs_div]
  simp only [← Int.cast_abs, ← Nat.cast_natAbs, Int.natAbs_tdiv]
  exact Nat.cast_div_le

/-- `tdiv` is less than 1 off the exact quotient (R13). -/
theorem abs_div_sub_tdiv_lt_one (n d : Int) (hd : d ≠ 0) : |(n : ℚ) / d - tdiv n d| < 1 := by
  have hd' : (d : ℚ) ≠ 0 := Int.cast_ne_zero.mpr hd
  have hrem : (n : ℚ) / d - tdiv n d = (n.tmod d : Int) / d := by
    rw [tdiv_eq, div_sub' hd', Int.tmod_def]
    push_cast
    rfl
  have hlt : |n.tmod d| < |d| := by
    rw [Int.abs_eq_natAbs, Int.abs_eq_natAbs, Int.natAbs_tmod]
    exact_mod_cast Nat.mod_lt _ (Int.natAbs_pos.mpr hd)
  rw [hrem, abs_div, div_lt_one (abs_pos.mpr hd')]
  exact_mod_cast hlt

/-- The floor shift takes off what stands below the 1 LSB place: less than 1, never negative (R14, R15). -/
theorem sub_roundShift_floor_mem (n : Int) :
    0 ≤ (n : ℚ) / 256 - roundShift .floor n ∧ (n : ℚ) / 256 - roundShift .floor n < 1 := by
  have h : roundShift .floor n = ⌊(n : ℚ) / 256⌋ := by
    rw [roundShift_floor]
    exact (Rat.floor_intCast_div_natCast n 256).symm
  rw [h]
  exact ⟨Int.fract_nonneg _, Int.fract_lt_one _⟩

/-! ### Real values (R34, R35) -/

theorem realValue_eq (n : Int) : realValue n = n / 256 := by
  norm_num [realValue, Config.F]

theorem realValue_mul (a b : Int) : realValue a * realValue b = ((a * b : Int) / 256 : ℚ) / 256 := by
  simp only [realValue_eq]
  push_cast
  ring

/-- The quotient of two real values, in LSB, is the quotient of the dividend shifted left by `F` (R114, R154). -/
theorem realValue_div (a b : Int) : realValue a / realValue b = ((shl a Config.F : Int) / b : ℚ) / 256 := by
  rw [realValue_eq, realValue_eq, shl_F, div_div_div_cancel_right₀ (by norm_num)]
  push_cast
  ring

/-- An integer toward zero of `x` LSB and less than 1 off it stands for a real number toward zero of `x` LSB and less than
1 LSB off it. -/
theorem realValue_toward_zero {q : Int} {x : ℚ} (hle : |(q : ℚ)| ≤ |x|) (hlt : |x - q| < 1) :
    |realValue q| ≤ |x / 256| ∧ |x / 256 - realValue q| < realValue 1 := by
  simp only [realValue_eq, ← sub_div, abs_div, Int.cast_one, Nat.abs_ofNat]
  exact ⟨by gcongr, by gcongr⟩

/-! ### The operations in range -/

/-- A value in a format's range is its own wrapping (R12). -/
theorem wrap_of_mem (f : Fmt) (n : Int) (hlo : minOf f.width ≤ n) (hhi : n ≤ maxOf f.width) : wrap f.width n = n := by
  cases f <;> simp only [width_q7p8, width_q15p8, minOf_16, maxOf_16, minOf_24, maxOf_24, wrap] at * <;> omega

/-- Either rounding of the shift is less than 1 off the exact quotient (R15). -/
theorem abs_sub_roundShift_lt_one (m : Rounding) (n : Int) : |(n : ℚ) / 256 - roundShift m n| < 1 := by
  cases m with
  | floor =>
    obtain ⟨h₀, h₁⟩ := sub_roundShift_floor_mem n
    rwa [abs_of_nonneg h₀]
  | trunc => exact abs_div_sub_tdiv_lt_one n 256 (by decide)

/-- A product in range does not wrap, under either rounding (R113, R153). -/
theorem qmul_of_mem (f : Fmt) (m : Rounding) (a b : Int) (hlo : minOf f.width * 256 ≤ a * b)
    (hhi : a * b ≤ maxOf f.width * 256) : qmul f m a b = roundShift m (a * b) := by
  have hlo' : (minOf f.width : ℚ) ≤ (a * b : Int) / 256 := by
    rw [le_div_iff₀ (by norm_num)]
    exact_mod_cast hlo
  have hhi' : ((a * b : Int) / 256 : ℚ) ≤ maxOf f.width := by
    rw [div_le_iff₀ (by norm_num)]
    exact_mod_cast hhi
  obtain ⟨h₁, h₂⟩ := mem_of_abs_sub_lt_one (abs_sub_roundShift_lt_one m (a * b)) hlo' hhi'
  exact wrap_of_mem f _ h₁ h₂

/-- A quotient in range does not saturate (R114, R154). -/
theorem qdiv_of_mem (f : Fmt) (a b : Int) (hb : b ≠ 0) (hlo : (minOf f.width : ℚ) ≤ realValue a / realValue b * 256)
    (hhi : realValue a / realValue b * 256 ≤ maxOf f.width) : qdiv f a b = tdiv (shl a Config.F) b := by
  rw [realValue_div, div_mul_cancel₀ _ (by norm_num)] at hlo hhi
  obtain ⟨h₁, h₂⟩ := mem_of_abs_sub_lt_one (abs_div_sub_tdiv_lt_one (shl a Config.F) b hb) hlo hhi
  rw [qdiv, if_neg hb, sat_of_mem _ _ h₁ h₂]

/-- A sum in range is exact (R111, R151). -/
theorem realValue_qadd (f : Fmt) (a b : Int) (hlo : minOf f.width ≤ a + b) (hhi : a + b ≤ maxOf f.width) :
    realValue (qadd f a b) = realValue a + realValue b := by
  rw [qadd, sat_of_mem _ _ hlo hhi]
  simp only [realValue_eq]
  push_cast
  ring

/-- A product in range under `floor` is at most the exact one and less than 1 LSB below it (R15). -/
theorem realValue_qmul_floor (f : Fmt) (a b : Int) (hlo : minOf f.width * 256 ≤ a * b)
    (hhi : a * b ≤ maxOf f.width * 256) :
    0 ≤ realValue a * realValue b - realValue (qmul f .floor a b) ∧
      realValue a * realValue b - realValue (qmul f .floor a b) < realValue 1 := by
  obtain ⟨h₀, h₁⟩ := sub_roundShift_floor_mem (a * b)
  rw [qmul_of_mem f .floor a b hlo hhi, realValue_mul, realValue_eq, realValue_eq, ← sub_div, Int.cast_one]
  exact ⟨div_nonneg h₀ (by norm_num), by gcongr⟩

/-- A product in range under `trunc` is toward zero and less than 1 LSB off (R15). -/
theorem realValue_qmul_trunc (f : Fmt) (a b : Int) (hlo : minOf f.width * 256 ≤ a * b)
    (hhi : a * b ≤ maxOf f.width * 256) :
    |realValue (qmul f .trunc a b)| ≤ |realValue a * realValue b| ∧
      |realValue a * realValue b - realValue (qmul f .trunc a b)| < realValue 1 := by
  rw [qmul_of_mem f .trunc a b hlo hhi, realValue_mul]
  exact realValue_toward_zero (abs_tdiv_le (a * b) 256) (abs_sub_roundShift_lt_one .trunc (a * b))

/-- A quotient in range is toward zero and less than 1 LSB off (R13, R114, R154). -/
theorem realValue_qdiv (f : Fmt) (a b : Int) (hb : b ≠ 0)
    (hlo : (minOf f.width : ℚ) ≤ realValue a / realValue b * 256)
    (hhi : realValue a / realValue b * 256 ≤ maxOf f.width) :
    |realValue (qdiv f a b)| ≤ |realValue a / realValue b| ∧
      |realValue a / realValue b - realValue (qdiv f a b)| < realValue 1 := by
  rw [qdiv_of_mem f a b hb hlo hhi, realValue_div]
  exact realValue_toward_zero (abs_tdiv_le (shl a Config.F) b) (abs_div_sub_tdiv_lt_one (shl a Config.F) b hb)

/-! ### The statements of 00_scope.md -/

/-- Settles O39: `roundShift_trunc_eq_floor_add` on one number, and `qmul_q7p8_roundings` on what two builds answer. -/
theorem multiplyRoundingsDifferByOneLsb : Obligations.MultiplyRoundingsDifferByOneLsb := by
  unfold Obligations.MultiplyRoundingsDifferByOneLsb
  refine ⟨fun n => ⟨roundShift_floor n, roundShift_trunc n, fun h => ?_, fun hneg hmod => ?_⟩, fun s hfloor => ?_⟩
  · rw [roundShift_trunc_eq_floor_add, if_pos h, add_zero]
  · rw [roundShift_trunc_eq_floor_add, if_neg (by omega)]
  · refine ⟨_, _, exec_qmul7 s, exec_qmul7 _, ?_⟩
    rw [hfloor]
    exact qmul_q7p8_roundings (low16 s.p0) (low16 s.p1)

/-- Settles O40: each of the four operations in range, from its distance to the exact value. -/
theorem realNumberAccuracy : Obligations.RealNumberAccuracy := by
  unfold Obligations.RealNumberAccuracy
  intro f a b
  exact ⟨realValue_qadd f a b, realValue_qmul_floor f a b, realValue_qmul_trunc f a b, realValue_qdiv f a b⟩

end Sys2Proof.Machine
end

section
/-! SUPPORT. A command answers from the operand ports and the build alone, and the answer on `R` is all it leaves behind
(R40, R42, R43, R45). So a sequence of commands answers one by one what each answers alone (R65). -/

namespace Sys2Proof.Machine

/-! ### What a command reads and what it leaves -/

/-- Every command ends by driving `R`; the two that multiply in 15p8 do so only where the build has them (R40, R87). -/
theorem exec_eq_driveR_or_whenMul15 (i : Instr) (s : State) :
    ∃ n : Int, exec i s = driveR n s ∨ exec i s = whenMul15 i s (driveR n s) := by
  cases i with
  | qmul15 | qlerp15 => exact ⟨_, .inr rfl⟩
  | _ => exact ⟨_, .inl rfl⟩

/-- A command that answers leaves everything but `R` as it was (R42, R43). -/
theorem eq_setR_of_exec_next {i : Instr} {s t : State} (h : exec i s = .next t) : ∃ v : Word, t = s.setR v := by
  obtain ⟨n, hdrive | hmul⟩ := exec_eq_driveR_or_whenMul15 i s
  · exact ⟨enc24 n, (driveR_next n s t).mp (hdrive ▸ h)⟩
  · obtain ⟨-, hdrive⟩ := (whenMul15_next i s t (driveR n s)).mp (hmul ▸ h)
    exact ⟨enc24 n, (driveR_next n s t).mp hdrive⟩

/-- No command reads `R`, and every command that answers replaces it (R40, R45). -/
@[simp] theorem exec_setR (i : Instr) (s : State) (v : Word) : exec i (s.setR v) = exec i s := by
  cases i <;> rfl

/-! ### The same of a step -/

theorem eq_setR_of_step_next {s t : State} (h : step s = .next t) : ∃ v : Word, t = s.setR v := by
  unfold step at h
  split at h
  · exact eq_setR_of_exec_next h
  · cases h

@[simp] theorem step_setR (s : State) (v : Word) : step (s.setR v) = step s := by
  simp only [step, State.setR_commandCode, State.setR_build, exec_setR]

theorem build_of_step_next {s t : State} (h : step s = .next t) : t.build = s.build := by
  obtain ⟨v, rfl⟩ := eq_setR_of_step_next h
  exact s.setR_build v

/-- A block steps on driven inputs as a block of its build does at power-up: the two differ only in the old `R` (R45). -/
theorem step_powerUp_drive (s : State) (x : Inputs) :
    step ((State.powerUp s.build).drive x) = step (s.drive x) := by
  have hr : s.drive x = ((State.powerUp s.build).drive x).setR s.r := rfl
  rw [hr, step_setR]

/-! ### Sequences of commands (R65) -/

/-- Each command answers what it answers alone on the block's build, whatever was answered before it. -/
theorem answers_eq_map_respond (s : State) (xs : List Inputs) : answers s xs = xs.map (respond s.build) := by
  induction xs generalizing s with
  | nil => rfl
  | cons x xs ih =>
    rw [List.map_cons]
    obtain ⟨t, hnext⟩ | ⟨why, hrefused⟩ := outcome_cases (step (s.drive x))
    · have hbuild : t.build = s.build := (build_of_step_next hnext).trans (s.drive_build x)
      rw [respond_of_next _ _ t ((step_powerUp_drive s x).trans hnext), answers, hnext, ← hbuild]
      exact congrArg _ (ih t)
    · rw [respond_of_refused _ _ why ((step_powerUp_drive s x).trans hrefused), answers, hrefused]
      exact congrArg _ (ih (s.drive x))

/-! ### The statement of 20_memory.md -/

/-- Settles O23: the answers are a map over the inputs, by `answers_eq_map_respond`, and two orders of a list map to two
orders of the same pairs. -/
theorem noCommandDisturbsAnother : Obligations.NoCommandDisturbsAnother := by
  unfold Obligations.NoCommandDisturbsAnother
  refine ⟨answers_eq_map_respond, fun s xs ys hperm => ?_⟩
  rw [answers_eq_map_respond, answers_eq_map_respond, ← List.map_prod_left_eq_zip, ← List.map_prod_left_eq_zip]
  exact hperm.map _

end Sys2Proof.Machine
end

section
/-! SUPPORT. The command codes read back (R81 to R87), a command's answer as the bits it reads fix it (R84, R93), and
interpolation in the spec's own arithmetic (R240 to R242). -/

namespace Sys2Proof.Machine

open Sys2Proof.Claims

/-! ### Codes and the commands they stand for (R81 to R87, R90) -/

open Laws.CodeFields in
/-- Every command's code carries its fields, and the function table reads them back (R81 to R83). -/
theorem codeFields (i : Instr) : Statement i :=
  i.rec qadd7 qsub7 qmul7 qdiv7 qneg7 qabs7 qcmp7 qwid qfint7 qfrac7 qtint7 qlerp7
    qadd15 qsub15 qmul15 qdiv15 qneg15 qabs15 qcmp15 qnar qfint15 qfrac15 qtint15 qlerp15

/-- A command's code decodes to the command, or is named absent in a build without it (R87, R90). -/
theorem decode_encode (b : Build) (i : Instr) :
    decode b (encode i) = if i.wellFormed b then .ok i else .error (.mul15Absent (encode i)) := by
  obtain ⟨hrsv, hfmt, hfn, hcommand⟩ := codeFields i
  simp only [decode, hrsv, hfmt, hfn, hcommand, ne_eq, not_true_eq_false, if_false]

/-- R5's default build has all 24 commands (R87). -/
theorem wellFormed_default (i : Instr) : i.wellFormed Build.default = true :=
  Bool.or_true _

/-- A step on the code of a command that the build has runs that command (R80, R90). -/
theorem step_of_op_eq_encode {s : State} {i : Instr} (hop : s.op = encode i) (hwf : i.wellFormed s.build = true) :
    step s = exec i s := by
  rw [step, State.commandCode, hop, decode_encode, if_pos hwf]

/-- A step on the code of a command that the build has not is refused by name (R87). -/
theorem step_of_op_eq_encode_absent {s : State} {i : Instr} (hop : s.op = encode i)
    (habsent : i.wellFormed s.build = false) : step s = .refused (.reservedCode (.mul15Absent (encode i))) :=
  step_of_reserved s _ (by rw [hop, decode_encode, habsent]; rfl)

/-- What a command that the build has drives on `R`, a step on its code drives too (R80). -/
theorem drives_of_exec {i : Instr} {code : Byte} {s : State} {v : Word} (hcode : encode i = code)
    (hwf : i.wellFormed s.build = true) (hexec : exec i s = .next { s with r := v }) : Drives i code s v :=
  ⟨hcode, hexec, fun hop => (step_of_op_eq_encode (hop.trans hcode.symm) hwf).trans hexec⟩

theorem whenMul15_of_present {i : Instr} {s : State} {k : Host.Outcome State Fault Refusal}
    (h : s.build.mul15Present = true) : whenMul15 i s k = k :=
  if_pos h

theorem whenMul15_of_absent {i : Instr} {s : State} {k : Host.Outcome State Fault Refusal}
    (h : s.build.mul15Present = false) : whenMul15 i s k = .refused (.reservedCode (.mul15Absent (encode i))) := by
  rw [whenMul15, h]
  rfl

/-! ### What a command reads (R84, R93) -/

/-- Blocks that agree on the bits a command reads have the same build and the same operands for it (R39, R84). -/
theorem operands_eq_of_agreeOnRead {i : Instr} {s s' : State} (h : agreeOnRead i s s' = true) :
    s.build = s'.build ∧ ∀ p ∈ i.ports, operand i.fmt p s = operand i.fmt p s' := by
  simp only [agreeOnRead, Bool.and_eq_true, beq_iff_eq, List.all_eq_true] at h
  obtain ⟨hbuild, hports⟩ := h
  exact ⟨hbuild, fun p hp => congrArg BitVec.toInt (hports p hp)⟩

/-- The build and the operands on the listed ports fix the integer a command drives on `R`; only a build without the
command refuses it (R84, R87, R93). -/
theorem exec_eq_of_operands_eq {i : Instr} {s s' : State} (hbuild : s.build = s'.build)
    (hread : ∀ p ∈ i.ports, operand i.fmt p s = operand i.fmt p s') :
    ∃ n : Int, ∀ t, t = s ∨ t = s' →
      exec i t = if i.wellFormed t.build then driveR n t else .refused (.reservedCode (.mul15Absent (encode i))) := by
  simp only [forall_eq_or_imp, forall_eq]
  cases i
  all_goals
    simp only [Instr.ports, Instr.fmt, List.forall_mem_cons] at hread
    refine ⟨_, rfl, ?_⟩
    simp only [operandA, operandB, hread, hbuild]
    rfl

/-! ### Interpolation as R240's formula -/

/-- Saturation moves no difference to zero, so the test `dx = 0` is the test of equal `x` (R11, R240). -/
theorem qsub_eq_zero (f : Fmt) (a b : Int) : qsub f a b = 0 ↔ a = b := by
  cases f <;> simp only [qsub, sat_eq_clamp, width_q7p8, width_q15p8, minOf_16, maxOf_16, minOf_24, maxOf_24] <;> omega

theorem roundShift_eq_shift8 (m : Rounding) (n : Int) : roundShift m n = shift8 m n := by
  cases m with
  | floor => exact roundShift_floor n
  | trunc => exact roundShift_trunc n

/-- Wrapping is the balanced remainder, in both formats (R12). -/
theorem wrap_eq_bmod (f : Fmt) (n : Int) : wrap f.width n = Int.bmod n (2 ^ f.width) := by
  cases f with
  | q7p8 => exact wrap_16 n
  | q15p8 => exact wrap_24 n

/-- The division is the claims' quotient between the bounds of its format (R114, R154). -/
theorem qdiv_eq_quotient (f : Fmt) (a b : Int) : qdiv f a b = quotient (minOf f.width) (maxOf f.width) a b := by
  simp only [qdiv, divideByZero, quotient, sat_eq_clamp, tdiv_eq, shl_F, ge_iff_le]

/-- The interpolation is R240's formula between the bounds of its format. -/
theorem qlerp_eq_interpolated (f : Fmt) (m : Rounding) (x lx ly rx ry : Int) :
    qlerp f m x lx ly rx ry =
      interpolated (minOf f.width) (maxOf f.width) (2 ^ f.width) m x lx ly rx ry := by
  simp only [qlerp, interpolated, qsub_eq_zero]
  split
  · rfl
  · simp only [qadd, qmul, qsub, qdiv_eq_quotient, wrap_eq_bmod, roundShift_eq_shift8, sat_eq_clamp]

/-- QLERP7 always answers (R241). -/
theorem exec_qlerp7 (s : State) :
    exec .qlerp7 s = .next { s with r := enc24 (qlerp .q7p8 s.build.mulRound
      (low16 s.p0) (low16 s.p1) (low16 s.p2) (low16 s.p3) (low16 s.p4)) } := by
  show driveR _ s = _
  simp only [operand_q7p8]
  rfl

/-- QLERP15 answers in a build with the 15p8 multiply (R242). -/
theorem exec_qlerp15_of_present (s : State) (h : s.build.mul15Present = true) :
    exec .qlerp15 s = .next { s with r := enc24 (qlerp .q15p8 s.build.mulRound
      s.p0.toInt s.p1.toInt s.p2.toInt s.p3.toInt s.p4.toInt) } := by
  show whenMul15 .qlerp15 s (driveR _ s) = _
  rw [whenMul15_of_present h]
  simp only [operand_q15p8]
  rfl

/-! ### The statements of 30_encoding.md -/

/-- Settles O13: both commands drive `qlerp`, which is the formula by `qlerp_eq_interpolated`; a step on the code of an
absent QLERP15 is refused as `exec` refuses it. -/
theorem interpolationFollowsFormula : Obligations.InterpolationFollowsFormula := by
  unfold Obligations.InterpolationFollowsFormula
  intro s
  refine ⟨?_, fun hpresent => ?_, fun habsent => ⟨whenMul15_of_absent habsent, fun hop => ?_⟩⟩
  · refine drives_of_exec rfl rfl ((exec_qlerp7 s).trans ?_)
    rw [qlerp_eq_interpolated]
    rfl
  · refine drives_of_exec rfl hpresent ((exec_qlerp15_of_present s hpresent).trans ?_)
    rw [qlerp_eq_interpolated]
    rfl
  · exact step_of_op_eq_encode_absent (i := .qlerp15) hop habsent

/-- Settles O21: equal operands fix one integer for both blocks, by `exec_eq_of_operands_eq`; both builds, being equal, have
the command or both lack it. -/
theorem answerDependsOnlyOnReadBits : Obligations.AnswerDependsOnlyOnReadBits := by
  unfold Obligations.AnswerDependsOnlyOnReadBits
  intro i s s' hagree
  obtain ⟨hbuild, hread⟩ := operands_eq_of_agreeOnRead hagree
  obtain ⟨n, hexec⟩ := exec_eq_of_operands_eq hbuild hread
  have hexec' := hexec s' (.inr rfl)
  rw [← hbuild] at hexec'
  rw [hexec s (.inl rfl), hexec']
  split
  · exact .inl ⟨enc24 n, rfl, rfl⟩
  · exact .inr ⟨_, rfl, rfl⟩

/-- Settles O15: the 24 codes are the codes of the 24 commands, each of which decodes back in the default build. -/
theorem opcodeMapDecodes : Obligations.OpcodeMapDecodes := by
  unfold Obligations.OpcodeMapDecodes
  have hdecode (i : Instr) : decode Build.default (encode i) = .ok i := by
    rw [decode_encode, if_pos (wellFormed_default i)]
  refine .trans ?_ (List.map_congr_left fun i _ => hdecode i)
  rfl

end Sys2Proof.Machine
end

section
/-! SUPPORT. Sum, difference, product, negation, absolute value and comparison in the spec's own arithmetic: what each
command drives on `R` in both formats (R111 to R117, R151 to R157; division is `qdiv_eq_quotient`). -/

namespace Sys2Proof.Machine

open Sys2Proof.Claims

/-! ### What a command reads and drives (R39, R40, R80) -/

theorem operandA_q15p8 (s : State) : operandA .q15p8 s = s.p0.toInt := operand_q15p8 .p0 s

theorem operandB_q15p8 (s : State) : operandB .q15p8 s = s.p1.toInt := operand_q15p8 .p1 s

/-- A command of the build that ends by driving `n` puts the word `v` of `n` on `R` and leaves the rest (R40). -/
theorem drives_of_driveR {i : Instr} {code : Byte} {s : State} {n : Int} {v : Word} (hcode : encode i = code)
    (hwf : i.wellFormed s.build = true) (hexec : exec i s = driveR n s) (hv : enc24 n = v) : Drives i code s v :=
  drives_of_exec hcode hwf (by rw [hexec, ← hv]; rfl)

/-! ### The operations in the spec's arithmetic -/

/-- Saturation to 7p8 is the claims' clamp (R11). -/
theorem sat_q7p8 (n : Int) : sat Fmt.q7p8.width n = clamp7 n := sat_eq_clamp 16 n

/-- Saturation to 15p8 is the claims' clamp (R11). -/
theorem sat_q15p8 (n : Int) : sat Fmt.q15p8.width n = clamp15 n := sat_eq_clamp 24 n

/-- The product is shifted by the build's rounding and reduced to its balanced remainder (R113, R153). -/
theorem qmul_eq_bmod (f : Fmt) (m : Rounding) (a b : Int) :
    qmul f m a b = Int.bmod (shift8 m (a * b)) (2 ^ f.width) := by
  rw [qmul, wrap_eq_bmod, roundShift_eq_shift8]

/-- A format reaches one step further below zero than above it (R36). -/
theorem minOf_eq_neg_maxOf (W : Nat) : minOf W = -maxOf W - 1 := by
  simp only [minOf, maxOf]
  omega

/-- No negation of a value in range falls below MIN, so negation cuts at MAX alone (R115, R155). -/
theorem qneg_eq_min {f : Fmt} {a : Int} (h : a ≤ maxOf f.width) : qneg f a = min (maxOf f.width) (-a) := by
  have hmin := minOf_eq_neg_maxOf f.width
  have hle := minOf_le_maxOf f.width
  rw [qneg, sat_eq_clamp]
  omega

/-- Only a negative value is negated, so the absolute value is cut at MAX as its negation is (R116, R156). -/
theorem qabs_eq_min {f : Fmt} {a : Int} (h : a ≤ maxOf f.width) : qabs f a = min (maxOf f.width) |a| := by
  unfold qabs
  split
  next hpos => rw [abs_of_nonneg hpos, min_eq_right h]
  next hneg => rw [abs_of_neg (not_le.mp hneg), qneg_eq_min h]

/-- The comparison's words on `R`: -1 is all ones (R117, R157, D16). -/
theorem enc24_compareCode (a b : Int) :
    enc24 (compareCode a b) = if a < b then 0xFFFFFF else if a = b then 0 else 1 := by
  rw [compareCode, apply_ite enc24, apply_ite enc24]
  rfl

/-! ### The statements of 40_arith_7p8.md -/

/-- Settles O3: the product is `qmul_eq_bmod` in both formats; a step on the code of an absent QMUL15 is refused as
`exec` refuses it. -/
theorem multiplyShiftsThenWraps : Obligations.MultiplyShiftsThenWraps := by
  unfold Obligations.MultiplyShiftsThenWraps
  intro s
  refine ⟨drives_of_driveR rfl rfl rfl ?_, fun hpresent => ?_,
    fun habsent => ⟨whenMul15_of_absent habsent, fun hop => ?_⟩⟩
  · rw [operandA_q7p8, operandB_q7p8, qmul_eq_bmod]
    rfl
  · refine drives_of_driveR rfl hpresent (whenMul15_of_present hpresent) ?_
    rw [operandA_q15p8, operandB_q15p8, qmul_eq_bmod]
    rfl
  · exact step_of_op_eq_encode_absent (i := .qmul15) hop habsent

/-- Settles O1: the exact sum, saturated. -/
theorem addSaturates : Obligations.AddSaturates := by
  unfold Obligations.AddSaturates
  intro s
  refine ⟨drives_of_driveR rfl rfl rfl ?_, drives_of_driveR rfl rfl rfl ?_⟩
  · rw [qadd, sat_q7p8, operandA_q7p8, operandB_q7p8, enc24]
  · rw [qadd, sat_q15p8, operandA_q15p8, operandB_q15p8, enc24]

/-- Settles O2: the exact difference, saturated. -/
theorem subtractSaturatesExactDifference : Obligations.SubtractSaturatesExactDifference := by
  unfold Obligations.SubtractSaturatesExactDifference
  intro s
  refine ⟨drives_of_driveR rfl rfl rfl ?_, drives_of_driveR rfl rfl rfl ?_⟩
  · rw [qsub, sat_q7p8, operandA_q7p8, operandB_q7p8, enc24]
  · rw [qsub, sat_q15p8, operandA_q15p8, operandB_q15p8, enc24]

/-- Settles O5: an operand is in range, so `qneg_eq_min` gives its negation. -/
theorem negateSaturates : Obligations.NegateSaturates := by
  unfold Obligations.NegateSaturates
  intro s
  have hneg (f : Fmt) : qneg f (operandA f s) = min (maxOf f.width) (-operandA f s) :=
    qneg_eq_min (operand_mem f .p0 s).2
  refine ⟨drives_of_driveR rfl rfl rfl ?_, drives_of_driveR rfl rfl rfl ?_⟩
  · rw [hneg, operandA_q7p8, width_q7p8, maxOf_16, enc24]
  · rw [hneg, operandA_q15p8, width_q15p8, maxOf_24, enc24]

/-- Settles O6: an operand is in range, so `qabs_eq_min` gives its absolute value. -/
theorem absoluteValueSaturates : Obligations.AbsoluteValueSaturates := by
  unfold Obligations.AbsoluteValueSaturates
  intro s
  have habs (f : Fmt) : qabs f (operandA f s) = min (maxOf f.width) |operandA f s| :=
    qabs_eq_min (operand_mem f .p0 s).2
  refine ⟨drives_of_driveR rfl rfl rfl ?_, drives_of_driveR rfl rfl rfl ?_⟩
  · rw [habs, operandA_q7p8, width_q7p8, maxOf_16, enc24]
  · rw [habs, operandA_q15p8, width_q15p8, maxOf_24, enc24]

/-- Settles O7: the three words of `enc24_compareCode`; two ports are equal exactly when their stored integers are. -/
theorem compareAnswersSignOfOrder : Obligations.CompareAnswersSignOfOrder := by
  unfold Obligations.CompareAnswersSignOfOrder
  intro s
  refine ⟨drives_of_driveR rfl rfl rfl ?_, drives_of_driveR rfl rfl rfl ?_⟩
  · rw [enc24_compareCode, operandA_q7p8, operandB_q7p8]
  · simp only [enc24_compareCode, operandA_q15p8, operandB_q15p8, BitVec.toInt_inj]

end Sys2Proof.Machine
end

section
/-! SUPPORT. Construction from an integer and the integer part of a value, in the spec's own arithmetic (R191, R192, R195,
R196). -/

namespace Sys2Proof.Machine

open Sys2Proof.Claims

/-! ### The range of an integer part (R195, R196) -/

/-- The integer part of a value within `256 · k` of zero is within `k` of it, by either rounding: where `trunc` lies above
`floor` the value is negative, so `trunc` is still at most zero. -/
theorem qtint_mem {a k : Int} (m : Rounding) (hlo : -k * 256 ≤ a) (hhi : a < k * 256) :
    -k ≤ qtint m a ∧ qtint m a < k := by
  have hfloor : -k ≤ a / 256 ∧ a / 256 < k :=
    ⟨Int.le_ediv_of_mul_le (by decide) hlo, Int.ediv_lt_of_lt_mul (by decide) hhi⟩
  cases m with
  | floor => rwa [qtint, roundShift_floor]
  | trunc =>
    rw [qtint, roundShift_trunc_eq_floor_add, roundShift_floor]
    split
    next => rwa [add_zero]
    next hlifted =>
      have hneg : a / 256 < 0 := Int.ediv_neg_of_neg_of_pos (by omega) (by decide)
      omega

/-! ### The statements of 42_construct.md -/

/-- Settles O12: the integer part of an operand is the operand shifted by the build's rounding, and `qtint_mem` bounds
it, the operand being in the range of its format. -/
theorem integerExtractionRounds : Obligations.IntegerExtractionRounds := by
  unfold Obligations.IntegerExtractionRounds
  intro s
  have hqtint (n : Int) : qtint s.build.tointRound n = shift8 s.build.tointRound n :=
    roundShift_eq_shift8 s.build.tointRound n
  have ⟨hlo7, hhi7⟩ := operand_mem .q7p8 .p0 s
  have ⟨hlo15, hhi15⟩ := operand_mem .q15p8 .p0 s
  have hrange7 := qtint_mem (k := 128) s.build.tointRound hlo7 (Int.lt_add_one_of_le hhi7)
  have hrange15 := qtint_mem (k := 32768) s.build.tointRound hlo15 (Int.lt_add_one_of_le hhi15)
  rw [← operandA, operandA_q7p8, hqtint] at hrange7
  rw [← operandA, operandA_q15p8, hqtint] at hrange15
  refine ⟨drives_of_driveR rfl rfl rfl ?_, by omega, drives_of_driveR rfl rfl rfl ?_, by omega⟩
  · rw [hqtint, operandA_q7p8, enc24]
  · rw [hqtint, operandA_q15p8, enc24]

/-- Settles O10: 256 times the operand, saturated. -/
theorem integerConstructionSaturates : Obligations.IntegerConstructionSaturates := by
  unfold Obligations.IntegerConstructionSaturates
  intro s
  refine ⟨drives_of_driveR rfl rfl rfl ?_, drives_of_driveR rfl rfl rfl ?_⟩
  · rw [qfint, shl_F, sat_q7p8, operandA_q7p8, enc24]
  · rw [qfint, shl_F, sat_q15p8, operandA_q15p8, enc24]

end Sys2Proof.Machine
end

section
/-! SUPPORT. The low half of a 15p8 value, sign-extended: what widening drives on `R`, and narrowing under `wrap` (R220,
R221). -/

namespace Sys2Proof.Machine

open Sys2Proof.Claims

/-! ### The low half of a word (R8, R12, R40) -/

/-- Sign extension keeps the stored integer. -/
theorem toInt_extended (v : Word) : (extended v).toInt = low16 v :=
  BitVec.toInt_signExtend_of_le (by decide)

/-- The word of a low half's integer is the low half sign-extended (R8, R40). -/
theorem enc24_low16 (v : Word) : enc24 (low16 v) = extended v := by
  rw [← toInt_extended, enc24_toInt]

/-- Wrapping a 15p8 value to 7p8 keeps its low half: both are the balanced remainder modulo `2 ^ 16` (R12, R221). -/
theorem wrap_16_toInt (v : Word) : wrap 16 v.toInt = low16 v := by
  have hdvd : 2 ^ 16 ∣ 2 ^ 24 := by decide
  calc wrap 16 v.toInt
      = Int.bmod v.toInt (2 ^ 16) := wrap_16 v.toInt
    _ = Int.bmod (Int.bmod v.toNat (2 ^ 24)) (2 ^ 16) := by rw [BitVec.toInt_eq_toNat_bmod]
    _ = Int.bmod v.toNat (2 ^ 16) := Int.bmod_bmod_of_dvd hdvd
    _ = low16 v := (BitVec.toInt_setWidth v).symm

/-! ### The statements of 43_convert.md -/

/-- Settles O8: the operand is the low half's integer, whose word is `extended` by `enc24_low16`. -/
theorem wideningSignExtends : Obligations.WideningSignExtends := by
  unfold Obligations.WideningSignExtends
  intro s
  refine ⟨drives_of_driveR rfl rfl rfl ?_, toInt_extended s.p0⟩
  rw [operandA_q7p8, enc24_low16]

/-- Settles O9: by the build's policy, the operand saturated to 7p8, or wrapped to its low half by `wrap_16_toInt`. -/
theorem narrowingFollowsPolicy : Obligations.NarrowingFollowsPolicy := by
  unfold Obligations.NarrowingFollowsPolicy
  intro s
  refine drives_of_driveR rfl rfl rfl ?_
  rw [operandA_q15p8]
  cases s.build.narrowPolicy with
  | saturate => exact congrArg enc24 (sat_q7p8 s.p0.toInt)
  | wrap => exact (congrArg enc24 (wrap_16_toInt s.p0)).trans (enc24_low16 s.p0)

end Sys2Proof.Machine
end

section
/-! SUPPORT. An interpolation as the commands it is made of (R240), said once for both formats: a command reads
another's answer back exactly, so asking for R240's steps one at a time loses nothing. -/

namespace Sys2Proof.Machine

open Sys2Proof.Claims

/-! ### The value a word carries (R8, R39) -/

/-- The value of a format that a word carries to the port it stands on (R39). -/
def portValue (f : Fmt) (v : Word) : Int := (v.extractLsb' 0 f.width).toInt

/-- What `operand` reads in 7p8: the low half of the word (R39). -/
theorem portValue_q7p8 (v : Word) : portValue .q7p8 v = low16 v :=
  operand_q7p8 .p0 { State.reset with p0 := v }

/-- What `operand` reads in 15p8: the whole word (R39). -/
theorem portValue_q15p8 (v : Word) : portValue .q15p8 v = v.toInt :=
  operand_q15p8 .p0 { State.reset with p0 := v }

/-- A command reads back from `R` the value of its format that another drove there (R8, R40). -/
theorem portValue_enc24 {f : Fmt} {n : Int} (h : minOf f.width ≤ n ∧ n ≤ maxOf f.width) :
    portValue f (enc24 n) = n := by
  obtain ⟨hlo, hhi⟩ := h
  cases f with
  | q7p8 =>
    have hwrap : wrap 16 n = n := wrap_of_mem .q7p8 n hlo hhi
    simp only [width_q7p8, minOf_16, maxOf_16] at hlo hhi
    rw [portValue_q7p8, ← wrap_16_toInt, toInt_enc24 n (by omega) (by omega), hwrap]
  | q15p8 => rw [portValue_q15p8, toInt_enc24 n hlo hhi]

@[simp] theorem portValue_enc24_qsub (f : Fmt) (a c : Int) : portValue f (enc24 (qsub f a c)) = qsub f a c :=
  portValue_enc24 (qsub_mem f a c)

@[simp] theorem portValue_enc24_qdiv (f : Fmt) (a c : Int) : portValue f (enc24 (qdiv f a c)) = qdiv f a c :=
  portValue_enc24 (qdiv_mem f a c)

@[simp] theorem portValue_enc24_qmul (f : Fmt) (m : Rounding) (a c : Int) :
    portValue f (enc24 (qmul f m a c)) = qmul f m a c :=
  portValue_enc24 (qmul_mem f m a c)

/-- The host's test of a difference on `R` for 0 is R240's test of the two values for equality. -/
theorem enc24_qsub_eq_zero (f : Fmt) (a c : Int) : enc24 (qsub f a c) = 0 ↔ a = c := by
  rw [← qsub_eq_zero f a c]
  constructor
  · intro h
    rw [← portValue_enc24_qsub f a c, h]
    cases f <;> rfl
  · intro h
    rw [h]
    rfl

/-! ### What the five commands of R240 answer, in either format (R80, R240) -/

/-- The code of a format's command, by the function (R81). -/
def formatCode (f : Fmt) (fn : BitVec 4) : Byte := (0#3 ++ f.bit) ++ fn

theorem encode_eq_formatCode (i : Instr) : encode i = formatCode i.fmt i.fn := rfl

/-- The block answers the word of the integer that the command on `OP` drives (R40, R80). -/
theorem respond_of_driveR {i : Instr} {b : Build} {x : Inputs} {n : Int}
    (hop : x.op = formatCode i.fmt i.fn) (hwf : i.wellFormed b = true)
    (hexec : exec i ((State.powerUp b).drive x) = driveR n ((State.powerUp b).drive x)) :
    respond b x = some (enc24 n) :=
  respond_of_next b x _ ((step_of_op_eq_encode (hop.trans (encode_eq_formatCode i).symm) hwf).trans hexec)

theorem gives2_qadd (f : Fmt) (b : Build) (a c : Word) :
    Gives2 b (formatCode f 0b0000) a c (enc24 (qadd f (portValue f a) (portValue f c))) := by
  intro j2 j3 j4
  cases f with
  | q7p8 => exact respond_of_driveR (i := .qadd7) rfl rfl rfl
  | q15p8 => exact respond_of_driveR (i := .qadd15) rfl rfl rfl

theorem gives2_qsub (f : Fmt) (b : Build) (a c : Word) :
    Gives2 b (formatCode f 0b0001) a c (enc24 (qsub f (portValue f a) (portValue f c))) := by
  intro j2 j3 j4
  cases f with
  | q7p8 => exact respond_of_driveR (i := .qsub7) rfl rfl rfl
  | q15p8 => exact respond_of_driveR (i := .qsub15) rfl rfl rfl

theorem gives2_qdiv (f : Fmt) (b : Build) (a c : Word) :
    Gives2 b (formatCode f 0b0011) a c (enc24 (qdiv f (portValue f a) (portValue f c))) := by
  intro j2 j3 j4
  cases f with
  | q7p8 => exact respond_of_driveR (i := .qdiv7) rfl rfl rfl
  | q15p8 => exact respond_of_driveR (i := .qdiv15) rfl rfl rfl

/-! The multiply and the interpolation need a build that has them in 15p8 (R153, R242). -/

section

variable {f : Fmt} {b : Build} (hmul : f = .q15p8 → b.mul15Present = true)
include hmul

theorem gives2_qmul (a c : Word) :
    Gives2 b (formatCode f 0b0010) a c (enc24 (qmul f b.mulRound (portValue f a) (portValue f c))) := by
  intro j2 j3 j4
  cases f with
  | q7p8 => exact respond_of_driveR (i := .qmul7) rfl rfl rfl
  | q15p8 => exact respond_of_driveR (i := .qmul15) rfl (hmul rfl) (whenMul15_of_present (hmul rfl))

theorem gives5_qlerp (x lx ly rx ry : Word) :
    Gives5 b (formatCode f 0b1011) x lx ly rx ry (enc24 (qlerp f b.mulRound (portValue f x)
      (portValue f lx) (portValue f ly) (portValue f rx) (portValue f ry))) := by
  cases f with
  | q7p8 => exact respond_of_driveR (i := .qlerp7) rfl rfl rfl
  | q15p8 => exact respond_of_driveR (i := .qlerp15) rfl (hmul rfl) (whenMul15_of_present (hmul rfl))

end

/-! ### The two branches of R240 -/

/-- A zero-width interval gives its left end's `y` (R240). -/
theorem qlerp_of_eq {f : Fmt} {m : Rounding} {x lx ly rx ry : Int} (h : rx = lx) : qlerp f m x lx ly rx ry = ly :=
  if_pos ((qsub_eq_zero f rx lx).mpr h)

/-- Elsewhere the quotient of the differences is formed first, and then multiplied (R240). -/
theorem qlerp_of_ne {f : Fmt} {m : Rounding} {x lx ly rx ry : Int} (h : rx ≠ lx) :
    qlerp f m x lx ly rx ry =
      qadd f (qmul f m (qsub f x lx) (qdiv f (qsub f ry ly) (qsub f rx lx))) ly :=
  if_neg (mt (qsub_eq_zero f rx lx).mp h)

/-- What the host gets from the format's own commands, one at a time, is what the interpolation answers (R240). -/
theorem interpolation_by_commands {f : Fmt} {b : Build} (hmul : f = .q15p8 → b.mul15Present = true)
    (x lx ly rx ry : Word) : ∃ dx dy v : Word,
      Gives2 b (formatCode f 0b0001) rx lx dx ∧ Gives2 b (formatCode f 0b0001) ry ly dy ∧
      Gives5 b (formatCode f 0b1011) x lx ly rx ry v ∧
      (dx = 0 ↔ portValue f rx = portValue f lx) ∧
      (dx = 0 → v = enc24 (portValue f ly)) ∧
      (dx ≠ 0 → ∃ q u p : Word, Gives2 b (formatCode f 0b0011) dy dx q ∧
        Gives2 b (formatCode f 0b0001) x lx u ∧ Gives2 b (formatCode f 0b0010) u q p ∧
        Gives2 b (formatCode f 0b0000) p ly v) := by
  have hdx := enc24_qsub_eq_zero f (portValue f rx) (portValue f lx)
  refine ⟨_, _, _, gives2_qsub f b rx lx, gives2_qsub f b ry ly, gives5_qlerp hmul x lx ly rx ry, hdx,
    fun hzero => ?_, fun hne => ?_⟩
  · rw [qlerp_of_eq (hdx.mp hzero)]
  · refine ⟨_, _, _, gives2_qdiv f b _ _, gives2_qsub f b x lx, gives2_qmul hmul _ _, ?_⟩
    convert gives2_qadd f b _ ly using 2
    rw [qlerp_of_ne (mt hdx.mpr hne)]
    simp only [portValue_enc24_qsub, portValue_enc24_qdiv, portValue_enc24_qmul]

/-! ### The statement of 44_interp.md -/

/-- Settles O14: `interpolation_by_commands` in each format, where 7p8 reads the low half of a word and 15p8 the
whole. -/
theorem interpolationEqualsItsCommands : Obligations.InterpolationEqualsItsCommands := by
  unfold Obligations.InterpolationEqualsItsCommands
  refine ⟨fun b x lx ly rx ry => ?_, fun b x lx ly rx ry hpresent => ?_⟩
  · have h := interpolation_by_commands (f := .q7p8) (b := b) nofun x lx ly rx ry
    simp only [portValue_q7p8, enc24_low16] at h
    exact h
  · have h := interpolation_by_commands (f := .q15p8) (fun _ => hpresent) x lx ly rx ry
    simp only [portValue_q15p8, BitVec.toInt_inj, enc24_toInt] at h
    exact h

end Sys2Proof.Machine
end

section
/-! SUPPORT. The two directions between a command and its code (R81 to R90), and what a step does with a code: it runs the
command the code decodes to, or refuses it by name. -/

namespace Sys2Proof.Machine

/-! ### The fields of a code (R81) -/

/-- A code is its three fields, in the order R81 gives them. -/
theorem fields_append (op : Byte) : (fieldRsv op ++ (fieldFmt op).bit) ++ fieldFn op = op := by
  have hbit : (fieldFmt op).bit = op.extractLsb' 4 1 := by
    ext k hk
    obtain rfl : k = 0 := by omega
    rw [BitVec.getElem_extractLsb', fieldFmt]
    cases op.getLsbD 4 <;> simp [Fmt.bit]
  have hhigh : op.extractLsb' 5 3 ++ op.extractLsb' 4 1 = op.extractLsb' 4 4 :=
    BitVec.extractLsb'_append_extractLsb'_eq_extractLsb' rfl
  have hall : op.extractLsb' 4 4 ++ op.extractLsb' 0 4 = op.extractLsb' 0 8 :=
    BitVec.extractLsb'_append_extractLsb'_eq_extractLsb' rfl
  rw [hbit, fieldRsv, fieldFn, hhigh, hall, BitVec.extractLsb'_eq_self]

theorem fieldRsv_eq_zero_iff (op : Byte) : fieldRsv op = 0 ↔ op.toNat < 32 := by
  have hop := op.isLt
  rw [fieldRsv, ← BitVec.toNat_inj, BitVec.extractLsb'_toNat, Nat.shiftRight_eq_div_pow]
  show _ = 0 ↔ _
  omega

theorem fieldFn_toNat (op : Byte) : (fieldFn op).toNat = op.toNat % 16 :=
  BitVec.extractLsb'_toNat 0 4 op

/-- The function table holds a command only under the command's own format and function (R83). -/
theorem fields_of_commandOf {f : Fmt} {fn : BitVec 4} {i : Instr} (h : commandOf f fn = some i) :
    i.fmt = f ∧ i.fn = fn := by
  have htable : ∀ fn : BitVec 4, ∀ i ∈ commandOf f fn, i.fmt = f ∧ i.fn = fn := by
    cases f <;> decide
  exact htable fn i h

/-- The function table is empty from `FN` 12 on (R83, R87). -/
theorem commandOf_eq_none_iff (f : Fmt) (fn : BitVec 4) : commandOf f fn = none ↔ 12 ≤ fn.toNat := by
  have htable : ∀ fn : BitVec 4, commandOf f fn = none ↔ 12 ≤ fn.toNat := by
    cases f <;> decide
  exact htable fn

/-- The two commands that need the 15p8 multiply, by number (R87). -/
theorem needsMul15_iff (i : Instr) : i.needsMul15 = true ↔ (encode i).toNat = 18 ∨ (encode i).toNat = 27 := by
  cases i <;> decide

theorem wellFormed_eq_true_iff {b : Build} {i : Instr} :
    i.wellFormed b = true ↔ b.mul15Present = true ∨ i.needsMul15 = false := by
  simp [Instr.wellFormed, or_comm]

/-! ### Decoding, from the code's side -/

/-- Decoding succeeds with the command that the table holds for the fields, where the build has it (R90). -/
theorem decode_eq_ok_iff {b : Build} {op : Byte} {i : Instr} :
    decode b op = .ok i ↔
      fieldRsv op = 0 ∧ commandOf (fieldFmt op) (fieldFn op) = some i ∧ i.wellFormed b = true := by
  unfold decode
  split_ifs with hrsv
  · exact iff_of_false nofun fun h => hrsv h.1
  · rw [not_not] at hrsv
    cases hcommand : commandOf (fieldFmt op) (fieldFn op) with
    | none => simp
    | some j =>
      dsimp only
      split_ifs with hwf
      · simp only [Except.ok.injEq, hrsv, Option.some.injEq, true_and]
        exact ⟨fun h => ⟨h, h ▸ hwf⟩, And.left⟩
      · exact iff_of_false nofun fun ⟨_, hj, hi⟩ => hwf (Option.some.inj hj ▸ hi)

/-- The table's command for the fields of a code without reserved bits is the command of that code. -/
theorem encode_of_commandOf {op : Byte} {i : Instr} (hrsv : fieldRsv op = 0)
    (hcommand : commandOf (fieldFmt op) (fieldFn op) = some i) : encode i = op := by
  obtain ⟨hfmt, hfn⟩ := fields_of_commandOf hcommand
  have happend := fields_append op
  rwa [hrsv, ← hfmt, ← hfn] at happend

/-- A build's commands, by number: `FN` below 12 in either format, without QMUL15 and QLERP15 where the build lacks the
15p8 multiply (R87). -/
theorem decode_isOk_iff (b : Build) (op : Byte) :
    (decode b op).isOk = true ↔ op.toNat < 32 ∧ op.toNat % 16 < 12 ∧
      (b.mul15Present = true ∨ (op.toNat ≠ 18 ∧ op.toNat ≠ 27)) := by
  have hok : (decode b op).isOk = true ↔ ∃ i, decode b op = .ok i := by
    cases decode b op <;> simp [Except.isOk, Except.toBool]
  have hnone := commandOf_eq_none_iff (fieldFmt op) (fieldFn op)
  rw [fieldFn_toNat] at hnone
  simp only [hok, decode_eq_ok_iff, exists_and_left, ← fieldRsv_eq_zero_iff]
  refine and_congr_right fun hrsv => ?_
  cases hcommand : commandOf (fieldFmt op) (fieldFn op) with
  | none =>
    have hfn := hnone.mp hcommand
    simp [hfn]
  | some i =>
    have hfn : op.toNat % 16 < 12 := by
      by_contra h
      simp [hnone.mpr (not_lt.mp h)] at hcommand
    have hneeds := needsMul15_iff i
    rw [encode_of_commandOf hrsv hcommand] at hneeds
    simp [hfn, wellFormed_eq_true_iff, ← Bool.not_eq_true, hneeds]

/-! ### What a step does -/

theorem step_of_decode {s : State} {i : Instr} (h : decode s.build s.op = .ok i) : step s = exec i s := by
  rw [step, State.commandCode, h]

/-- In a build that has it, a command answers by driving one integer on `R` (R40, R87). -/
theorem exec_of_wellFormed {i : Instr} {s : State} (hwf : i.wellFormed s.build = true) :
    ∃ n : Int, exec i s = driveR n s := by
  obtain ⟨n, hexec⟩ := exec_eq_of_operands_eq (i := i) (s := s) rfl fun _ _ => rfl
  exact ⟨n, by rw [hexec s (.inl rfl), if_pos hwf]⟩

/-- A step either drives one integer on `R`, for a code of the build, or refuses a code the decoder calls reserved. -/
theorem step_cases (s : State) :
    (s.commanded = true ∧ ∃ n : Int, step s = driveR n s) ∨
    (s.commanded = false ∧ ∃ why, step s = .refused (.reservedCode why)) := by
  unfold State.commanded State.commandCode
  cases hdecode : decode s.build s.op with
  | ok i =>
    obtain ⟨-, -, hwf⟩ := decode_eq_ok_iff.mp hdecode
    rw [step_of_decode hdecode]
    exact .inl ⟨rfl, exec_of_wellFormed hwf⟩
  | error why => exact .inr ⟨rfl, why, step_of_reserved s why hdecode⟩

/-- A step that answers runs the command of a code of the build. -/
theorem decode_of_step_next {s t : State} (h : step s = .next t) :
    ∃ i, decode s.build s.op = .ok i ∧ exec i s = .next t := by
  cases hdecode : decode s.build s.op with
  | ok i => exact ⟨i, rfl, step_of_decode hdecode ▸ h⟩
  | error why => exact nomatch (step_of_reserved s why hdecode).symm.trans h

theorem step_answers_iff (s : State) : (∃ v : Word, step s = .next { s with r := v }) ↔ s.commanded = true := by
  obtain ⟨hcommanded, n, hstep⟩ | ⟨hcommanded, why, hstep⟩ := step_cases s
  · exact iff_of_true ⟨enc24 n, hstep⟩ hcommanded
  · simp [hstep, hcommanded]

theorem step_refuses_iff (s : State) :
    (∃ why : ReservedCode, step s = .refused (.reservedCode why)) ↔ ¬ s.commanded = true := by
  obtain ⟨hcommanded, n, hstep⟩ | ⟨hcommanded, hstep⟩ := step_cases s
  · simp [hstep, hcommanded, driveR]
  · exact iff_of_true hstep (by rw [hcommanded]; decide)

/-! ### The statements of 30_encoding.md -/

/-- Settles O16: `decode_encode` in a build with and without the command, and back by `encode_of_commandOf`. -/
theorem decodeAndEncodeAgree : Obligations.DecodeAndEncodeAgree := by
  unfold Obligations.DecodeAndEncodeAgree
  intro b
  refine ⟨fun i hwf => ?_, fun i habsent => ?_, fun op i hdecode => ?_⟩
  · rw [decode_encode, if_pos hwf]
  · rw [decode_encode, habsent]
    rfl
  · obtain ⟨hrsv, hcommand, hwf⟩ := decode_eq_ok_iff.mp hdecode
    exact ⟨encode_of_commandOf hrsv hcommand, hwf⟩

/-- Settles O17: `step_of_decode`, and `step_of_op_eq_encode` for the code of a command. -/
theorem stepRunsDecodedCommand : Obligations.StepRunsDecodedCommand := by
  unfold Obligations.StepRunsDecodedCommand
  exact ⟨fun s i => step_of_decode, fun s i => step_of_op_eq_encode⟩

/-- Settles O18: a step answers a code of the build and refuses every other, and `decode_isOk_iff` says which codes those
are. -/
theorem stepRefusesExactlyReservedCodes : Obligations.StepRefusesExactlyReservedCodes := by
  unfold Obligations.StepRefusesExactlyReservedCodes
  intro s reserved
  have hreserved : ¬ s.commanded = true ↔ reserved := by
    rw [State.commanded, State.commandCode, decode_isOk_iff]
    dsimp only [reserved]
    cases s.build.mul15Present
    all_goals
      simp only [reduceCtorEq, true_or, false_or, and_true, true_and, false_and, or_false]
      omega
  exact ⟨(step_refuses_iff s).trans hreserved, (step_answers_iff s).trans (not_iff_comm.mp hreserved).symm⟩

/-- Settles O19: `exec_of_wellFormed`. -/
theorem everyCommandCompletes : Obligations.EveryCommandCompletes := by
  unfold Obligations.EveryCommandCompletes
  intro i s hwf
  obtain ⟨n, hexec⟩ := exec_of_wellFormed hwf
  exact ⟨enc24 n, hexec⟩

end Sys2Proof.Machine
end

section
/-! SUPPORT. The range in which each command's result lies (R40), and what steps and runs keep (R42, R43, R45, R63). -/

namespace Sys2Proof.Machine

/-! ### The range of a result (R40, R116, R117, R195, R196) -/

theorem qabs_mem {f : Fmt} {a : Int} (h : a ≤ maxOf f.width) : 0 ≤ qabs f a ∧ qabs f a ≤ maxOf f.width := by
  have hmin := minOf_eq_neg_maxOf f.width
  have hle := minOf_le_maxOf f.width
  have habs := abs_nonneg a
  rw [qabs_eq_min h]
  omega

theorem qfint_mem (f : Fmt) (n : Int) : minOf f.width ≤ qfint f n ∧ qfint f n ≤ maxOf f.width :=
  ⟨minOf_le_sat _ _, sat_le_maxOf _ _⟩

/-- The comparison's three answers (R117, R157). -/
theorem compareCode_cases (a b : Int) :
    (a < b ∧ compareCode a b = -1) ∨ (a = b ∧ compareCode a b = 0) ∨ (b < a ∧ compareCode a b = 1) := by
  unfold compareCode
  split_ifs <;> omega

theorem compareCode_mem (a b : Int) : -1 ≤ compareCode a b ∧ compareCode a b ≤ 1 := by
  have h := compareCode_cases a b
  omega

theorem qnarrow_mem (p : Narrowing) (a : Int) : -32768 ≤ qnarrow p a ∧ qnarrow p a ≤ 32767 := by
  cases p with
  | saturate => exact ⟨minOf_le_sat 16 a, sat_le_maxOf 16 a⟩
  | wrap => exact wrap_mem .q7p8 a

/-- The integer part of an operand: a fraction of 8 bits less (R195, R196). -/
theorem qtint_operand_mem (m : Rounding) (f : Fmt) (p : Port) (s : State) :
    minOf (f.width - 8) ≤ qtint m (operand f p s) ∧ qtint m (operand f p s) ≤ maxOf (f.width - 8) := by
  obtain ⟨hlo, hhi⟩ := operand_mem f p s
  cases f with
  | q7p8 =>
    obtain ⟨h₁, h₂⟩ := qtint_mem (k := 128) m hlo (Int.lt_add_one_of_le hhi)
    exact ⟨h₁, Int.le_of_lt_add_one h₂⟩
  | q15p8 =>
    obtain ⟨h₁, h₂⟩ := qtint_mem (k := 32768) m hlo (Int.lt_add_one_of_le hhi)
    exact ⟨h₁, Int.le_of_lt_add_one h₂⟩

/-- Every command ends by driving an integer of its range. -/
theorem exec_drives_in_range (i : Instr) (s : State) :
    ∃ n : Int, (exec i s = driveR n s ∨ exec i s = whenMul15 i s (driveR n s)) ∧
      (resultRange i).1 ≤ n ∧ n ≤ (resultRange i).2 := by
  have hoperand (f : Fmt) (p : Port) := operand_mem f p s
  cases i with
  | qadd7 | qadd15 => exact ⟨_, .inl rfl, qadd_mem _ _ _⟩
  | qsub7 | qsub15 => exact ⟨_, .inl rfl, qsub_mem _ _ _⟩
  | qmul7 => exact ⟨_, .inl rfl, qmul_mem _ _ _ _⟩
  | qmul15 => exact ⟨_, .inr rfl, qmul_mem _ _ _ _⟩
  | qdiv7 | qdiv15 | qfrac7 | qfrac15 => exact ⟨_, .inl rfl, qdiv_mem _ _ _⟩
  | qneg7 | qneg15 => exact ⟨_, .inl rfl, qneg_mem _ _⟩
  | qabs7 | qabs15 => exact ⟨_, .inl rfl, qabs_mem (hoperand _ .p0).2⟩
  | qcmp7 | qcmp15 => exact ⟨_, .inl rfl, compareCode_mem _ _⟩
  | qwid => exact ⟨_, .inl rfl, hoperand .q7p8 .p0⟩
  | qnar => exact ⟨_, .inl rfl, qnarrow_mem _ _⟩
  | qfint7 | qfint15 => exact ⟨_, .inl rfl, qfint_mem _ _⟩
  | qtint7 | qtint15 => exact ⟨_, .inl rfl, qtint_operand_mem _ _ _ _⟩
  | qlerp7 => exact ⟨_, .inl rfl, qlerp_mem _ _ _ _ _ _ _ (hoperand _ .p2).1 (hoperand _ .p2).2⟩
  | qlerp15 => exact ⟨_, .inr rfl, qlerp_mem _ _ _ _ _ _ _ (hoperand _ .p2).1 (hoperand _ .p2).2⟩

/-- Every range fits the 24 bits of `R` (R33, R40). -/
theorem resultRange_fits (i : Instr) : -8388608 ≤ (resultRange i).1 ∧ (resultRange i).2 ≤ 8388607 := by
  cases i <;> decide

/-- A command that answers leaves on `R` an integer of its range. -/
theorem result_mem_of_exec_next {i : Instr} {s t : State} (h : exec i s = .next t) :
    (resultRange i).1 ≤ t.r.toInt ∧ t.r.toInt ≤ (resultRange i).2 := by
  obtain ⟨n, hexec, hlo, hhi⟩ := exec_drives_in_range i s
  have hnext : driveR n s = .next t := by
    obtain hdrive | hmul := hexec
    · exact hdrive ▸ h
    · exact ((whenMul15_next i s t _).mp (hmul ▸ h)).2
  obtain ⟨hfit_lo, hfit_hi⟩ := resultRange_fits i
  rw [(driveR_next n s t).mp hnext, State.setR_r, toInt_enc24 n (by omega) (by omega)]
  exact ⟨hlo, hhi⟩

/-- The range invariant, for a block whose code is one of its build. -/
theorem resultInRange_of_decode {s : State} {i : Instr} (hdecode : decode s.build s.op = .ok i) :
    s.resultInRange = true ↔ (resultRange i).1 ≤ s.r.toInt ∧ s.r.toInt ≤ (resultRange i).2 := by
  rw [State.resultInRange, State.commandCode, hdecode, Bool.and_eq_true, decide_eq_true_iff, decide_eq_true_iff]

/-! ### Steps and runs -/

/-- An answered state answers itself: a step reads nothing of the old `R` (R45, R63). -/
theorem step_of_step_next {s t : State} (h : step s = .next t) : step t = .next t := by
  obtain ⟨v, rfl⟩ := eq_setR_of_step_next h
  rw [step_setR, h]

theorem run_of_step_self {t : State} (h : step t = .next t) (n : Nat) : core.run n t = .next t := by
  induction n with
  | zero => rfl
  | succ n ih => rw [core_run_of_next n t t h, ih]

/-- A run that ends has changed nothing but `R` (R43, R46). -/
theorem eq_setR_of_run_next {n : Nat} {s t : State} (h : core.run n s = .next t) : ∃ v : Word, t = s.setR v := by
  induction n generalizing s with
  | zero => exact ⟨s.r, (Host.Outcome.next.inj h).symm⟩
  | succ n ih =>
    obtain ⟨s', hnext⟩ | ⟨why, hrefused⟩ := outcome_cases (step s)
    · obtain ⟨w, rfl⟩ := eq_setR_of_step_next hnext
      obtain ⟨v, rfl⟩ := ih (core_run_of_next n s _ hnext ▸ h)
      exact ⟨v, s.setR_setR w v⟩
    · exact nomatch (core_run_of_refused n s why hrefused).symm.trans h

/-- A block answers `v` to inputs exactly when, whatever it was doing, a step on these inputs leaves `v` on `R` (R45,
R80). -/
theorem respond_eq_some_iff (s : State) (x : Inputs) (v : Word) :
    respond s.build x = some v ↔ step (s.drive x) = .next ((s.drive x).setR v) := by
  have hstep := step_powerUp_drive s x
  obtain ⟨t, hnext⟩ | ⟨why, hrefused⟩ := outcome_cases (step (s.drive x))
  · obtain ⟨w, rfl⟩ := eq_setR_of_step_next hnext
    rw [respond_of_next _ _ _ (hstep.trans hnext), hnext, State.setR_r, Option.some_inj, Host.Outcome.next.injEq]
    exact ⟨fun h => h ▸ rfl, fun h => congrArg State.r h⟩
  · simp [respond_of_refused _ _ why (hstep.trans hrefused), hrefused]

/-! ### The statements of 10_state.md and 20_memory.md -/

/-- Settles O26: the command that answers leaves `R` in its range, and the step has changed neither `OP` nor the build. -/
theorem stepKeepsResultInRange : Obligations.StepKeepsResultInRange := by
  unfold Obligations.StepKeepsResultInRange
  intro s t _ hnext
  obtain ⟨i, hdecode, hexec⟩ := decode_of_step_next hnext
  have hrange := result_mem_of_exec_next hexec
  obtain ⟨v, rfl⟩ := eq_setR_of_step_next hnext
  exact (resultInRange_of_decode (s := s.setR v) hdecode).mpr hrange

/-- Settles O20: `eq_setR_of_exec_next`. -/
theorem onlyResultPortChanges : Obligations.OnlyResultPortChanges := by
  unfold Obligations.OnlyResultPortChanges
  intro i s t hnext
  obtain ⟨v, rfl⟩ := eq_setR_of_exec_next hnext
  exact ⟨rfl, rfl, rfl, rfl, rfl, rfl, rfl⟩

/-- Settles O22: `respond_eq_some_iff` at the inputs the block already has. -/
theorem stepIsFunctionOfInputs : Obligations.StepIsFunctionOfInputs := by
  unfold Obligations.StepIsFunctionOfInputs
  intro s v
  exact respond_eq_some_iff s s.inputs v

/-- Settles O24: `step_of_step_next`, and so any number of further steps. -/
theorem evaluationIsIdempotent : Obligations.EvaluationIsIdempotent := by
  unfold Obligations.EvaluationIsIdempotent
  intro s t hnext n
  exact run_of_step_self (step_of_step_next hnext) n

/-- Settles O25: `eq_setR_of_run_next`. -/
theorem runsKeepInputsAndBuild : Obligations.RunsKeepInputsAndBuild := by
  unfold Obligations.RunsKeepInputsAndBuild
  intro n s t hrun
  obtain ⟨v, rfl⟩ := eq_setR_of_run_next hrun
  exact ⟨s.setR_inputs v, s.setR_build v⟩

/-- Settles O27: at power-up `OP` carries the code of QADD7, which every build has, and the zero on `R` is in its
range. -/
theorem powerUpResultInRange : Obligations.PowerUpResultInRange := by
  unfold Obligations.PowerUpResultInRange
  have hrange (b : Build) : (State.powerUp b).resultInRange = true := by
    have hdecode : decode (State.powerUp b).build (State.powerUp b).op = .ok .qadd7 :=
      (decode_encode b .qadd7).trans (if_pos rfl)
    rw [resultInRange_of_decode hdecode, State.powerUp_r]
    decide
  exact ⟨hrange Build.default, hrange⟩

/-- Settles O28: both are the build the block was given. -/
theorem resetHasDefaultBuild : Obligations.ResetHasDefaultBuild := by
  unfold Obligations.ResetHasDefaultBuild
  exact ⟨rfl, State.powerUp_build⟩

end Sys2Proof.Machine
end

section
/-! SUPPORT. The laws of the commands: neutral operands, negation, construction and extraction, interpolation, conversion,
comparison. Each law is one fact about a shared operation on stored integers, and what the block answers follows in both
formats. -/

namespace Sys2Proof.Machine

open Sys2Proof.Claims

/-! ### The words that carry a value (R8, R39, R40) -/

theorem portValue_mem (f : Fmt) (v : Word) : minOf f.width ≤ portValue f v ∧ portValue f v ≤ maxOf f.width :=
  operand_mem f .p0 { State.reset with p0 := v }

theorem enc24_portValue_q7p8 (v : Word) : enc24 (portValue .q7p8 v) = extended v := by
  rw [portValue_q7p8, enc24_low16]

theorem enc24_portValue_q15p8 (v : Word) : enc24 (portValue .q15p8 v) = v := by
  rw [portValue_q15p8, enc24_toInt]

theorem portValue_zero (f : Fmt) : portValue f 0 = 0 := by
  cases f <;> decide

/-- The word of 1.0, in both formats (R34, R35). -/
theorem portValue_one (f : Fmt) : portValue f 0x000100 = 256 := by
  cases f <;> decide

/-- A word of a 7p8 integer has that integer as its low half. -/
theorem low16_enc24 {n : Int} (hlo : -32768 ≤ n) (hhi : n ≤ 32767) : low16 (enc24 n) = n := by
  rw [← portValue_q7p8]
  exact portValue_enc24 ⟨hlo, hhi⟩

/-! ### What the other commands answer (R80) -/

theorem gives2_qfrac (f : Fmt) (b : Build) (a c : Word) :
    Gives2 b (formatCode f 0b1001) a c (enc24 (qdiv f (portValue f a) (portValue f c))) := by
  intro j2 j3 j4
  cases f with
  | q7p8 => exact respond_of_driveR (i := .qfrac7) rfl rfl rfl
  | q15p8 => exact respond_of_driveR (i := .qfrac15) rfl rfl rfl

theorem gives1_qneg (f : Fmt) (b : Build) (a : Word) :
    Gives1 b (formatCode f 0b0100) a (enc24 (qneg f (portValue f a))) := by
  intro j1 j2 j3 j4
  cases f with
  | q7p8 => exact respond_of_driveR (i := .qneg7) rfl rfl rfl
  | q15p8 => exact respond_of_driveR (i := .qneg15) rfl rfl rfl

theorem gives1_qfint (f : Fmt) (b : Build) (a : Word) :
    Gives1 b (formatCode f 0b1000) a (enc24 (qfint f (portValue f a))) := by
  intro j1 j2 j3 j4
  cases f with
  | q7p8 => exact respond_of_driveR (i := .qfint7) rfl rfl rfl
  | q15p8 => exact respond_of_driveR (i := .qfint15) rfl rfl rfl

theorem gives1_qtint (f : Fmt) (b : Build) (a : Word) :
    Gives1 b (formatCode f 0b1010) a (enc24 (qtint b.tointRound (portValue f a))) := by
  intro j1 j2 j3 j4
  cases f with
  | q7p8 => exact respond_of_driveR (i := .qtint7) rfl rfl rfl
  | q15p8 => exact respond_of_driveR (i := .qtint15) rfl rfl rfl

theorem gives1_qwid (b : Build) (a : Word) : Gives1 b 0x07 a (extended a) := by
  intro j1 j2 j3 j4
  rw [← enc24_portValue_q7p8]
  exact respond_of_driveR (i := .qwid) rfl rfl rfl

theorem gives1_qnar (b : Build) (a : Word) : Gives1 b 0x17 a (enc24 (qnarrow b.narrowPolicy a.toInt)) := by
  intro j1 j2 j3 j4
  rw [← portValue_q15p8]
  exact respond_of_driveR (i := .qnar) rfl rfl rfl

/-! ### Sum, difference and negation on stored integers (R111, R112, R115) -/

theorem qadd_comm (f : Fmt) (a c : Int) : qadd f a c = qadd f c a := by
  rw [qadd, qadd, add_comm]

theorem qmul_comm (f : Fmt) (m : Rounding) (a c : Int) : qmul f m a c = qmul f m c a := by
  rw [qmul, qmul, mul_comm]

theorem qsub_self (f : Fmt) (a : Int) : qsub f a a = 0 :=
  (qsub_eq_zero f a a).mpr rfl

theorem qneg_of_ne_min {f : Fmt} {a : Int} (h : minOf f.width ≤ a ∧ a ≤ maxOf f.width) (hne : a ≠ minOf f.width) :
    qneg f a = -a := by
  have hmin := minOf_eq_neg_maxOf f.width
  rw [qneg_eq_min h.2]
  omega

/-- MIN alone does not come back from two negations: the first gives MAX (R119, R158). -/
theorem qneg_qneg {f : Fmt} {a : Int} (h : minOf f.width ≤ a ∧ a ≤ maxOf f.width) :
    qneg f (qneg f a) = if a = minOf f.width then minOf f.width + 1 else a := by
  have hmin := minOf_eq_neg_maxOf f.width
  have hle := minOf_le_maxOf f.width
  rw [qneg_eq_min (qneg_mem f a).2, qneg_eq_min h.2]
  split_ifs <;> omega

theorem qsub_eq_qadd_qneg {f : Fmt} {c : Int} (a : Int) (h : minOf f.width ≤ c ∧ c ≤ maxOf f.width)
    (hne : c ≠ minOf f.width) : qsub f a c = qadd f a (qneg f c) := by
  rw [qneg_of_ne_min h hne, qadd, qsub, sub_eq_add_neg]

/-! ### Product and quotient (R113, R114) -/

/-- The shift undoes a factor of 256, whichever way it rounds (R15). -/
theorem roundShift_mul_256 (m : Rounding) (n : Int) : roundShift m (n * 256) = n := by
  cases m with
  | floor => rw [roundShift_floor, Int.mul_ediv_cancel n (by decide)]
  | trunc => rw [roundShift_trunc, Int.mul_tdiv_cancel n (by decide)]

section

variable {f : Fmt} {a : Int} (h : minOf f.width ≤ a ∧ a ≤ maxOf f.width)
include h

theorem qadd_zero : qadd f a 0 = a := by
  rw [qadd, add_zero, sat_of_mem _ _ h.1 h.2]

theorem qadd_zero_left : qadd f 0 a = a := by
  rw [qadd_comm, qadd_zero h]

theorem qmul_one (m : Rounding) : qmul f m a 256 = a := by
  rw [qmul, roundShift_mul_256, wrap_of_mem f a h.1 h.2]

theorem qdiv_one : qdiv f a 256 = a := by
  rw [qdiv, if_neg (by decide), shl_F, tdiv_eq, Int.mul_tdiv_cancel a (by decide), sat_of_mem _ _ h.1 h.2]

end

theorem qmul_zero_left (f : Fmt) (m : Rounding) (a : Int) : qmul f m 0 a = 0 := by
  rw [qmul_eq_bmod, zero_mul]
  cases m <;> cases f <;> rfl

theorem qmul_zero (f : Fmt) (m : Rounding) (a : Int) : qmul f m a 0 = 0 := by
  rw [qmul_comm, qmul_zero_left]

theorem qdiv_self (f : Fmt) {a : Int} (h : a ≠ 0) : qdiv f a a = 256 := by
  rw [qdiv, if_neg h, shl_F, tdiv_eq, mul_comm, Int.mul_tdiv_cancel 256 h]
  cases f <;> rfl

theorem qdiv_zero_left (f : Fmt) {a : Int} (h : a ≠ 0) : qdiv f 0 a = 0 := by
  rw [qdiv, if_neg h, shl_F, zero_mul, tdiv_eq, Int.zero_tdiv]
  cases f <;> rfl

/-- A common factor of 256 leaves a quotient as it is, a division by zero included (R114, R193). -/
theorem qdiv_mul_256 (f : Fmt) (n d : Int) : qdiv f (n * 256) (d * 256) = qdiv f n d := by
  have hd : d * 256 = 0 ↔ d = 0 := by omega
  have hn : n * 256 ≥ 0 ↔ n ≥ 0 := by omega
  have hquotient : Int.tdiv (n * 256 * 256) (d * 256) = Int.tdiv (n * 256) d :=
    Int.mul_tdiv_mul_of_pos_left _ _ (by decide)
  simp only [qdiv, divideByZero, shl_F, tdiv_eq, hd, hn, hquotient]

/-! ### Construction and extraction (R191 to R196) -/

/-- An integer whose value is in the format's range is constructed exactly (R191, R192). -/
theorem qfint_of_mem {f : Fmt} {n : Int} (h : minOf f.width ≤ n * 256 ∧ n * 256 ≤ maxOf f.width) :
    qfint f n = n * 256 := by
  rw [qfint, shl_F, sat_of_mem _ _ h.1 h.2]

/-- Such an integer stands on a port as itself (R8, R190). -/
theorem portValue_integer {f : Fmt} {n : Int} (h : minOf f.width ≤ n * 256 ∧ n * 256 ≤ maxOf f.width) :
    portValue f (enc24 n) = n := by
  have hmin := minOf_eq_neg_maxOf f.width
  have hle := minOf_le_maxOf f.width
  exact portValue_enc24 (by omega)

theorem gives1_qfint_integer {f : Fmt} {n : Int} (b : Build)
    (h : minOf f.width ≤ n * 256 ∧ n * 256 ≤ maxOf f.width) :
    Gives1 b (formatCode f 0b1000) (enc24 n) (enc24 (n * 256)) := by
  have hgives := gives1_qfint f b (enc24 n)
  rwa [portValue_integer h, qfint_of_mem h] at hgives

theorem integer_round_trip {f : Fmt} {n : Int} (b : Build)
    (h : minOf f.width ≤ n * 256 ∧ n * 256 ≤ maxOf f.width) :
    ∃ v, Gives1 b (formatCode f 0b1000) (enc24 n) v ∧ Gives1 b (formatCode f 0b1010) v (enc24 n) := by
  have hgives := gives1_qtint f b (enc24 (n * 256))
  rw [portValue_enc24 h, qtint, roundShift_mul_256] at hgives
  exact ⟨_, gives1_qfint_integer b h, hgives⟩

theorem fraction_is_quotient {f : Fmt} {n d : Int} (b : Build)
    (hn : minOf f.width ≤ n * 256 ∧ n * 256 ≤ maxOf f.width)
    (hd : minOf f.width ≤ d * 256 ∧ d * 256 ≤ maxOf f.width) : ∃ vn vd v,
      Gives1 b (formatCode f 0b1000) (enc24 n) vn ∧ Gives1 b (formatCode f 0b1000) (enc24 d) vd ∧
      Gives2 b (formatCode f 0b0011) vn vd v ∧ Gives2 b (formatCode f 0b1001) (enc24 n) (enc24 d) v := by
  have hquotient := gives2_qdiv f b (enc24 (n * 256)) (enc24 (d * 256))
  have hfraction := gives2_qfrac f b (enc24 n) (enc24 d)
  rw [portValue_enc24 hn, portValue_enc24 hd, qdiv_mul_256] at hquotient
  rw [portValue_integer hn, portValue_integer hd] at hfraction
  exact ⟨_, _, _, gives1_qfint_integer b hn, gives1_qfint_integer b hd, hquotient, hfraction⟩

/-! ### Interpolation (R243) -/

/-- A zero-width interval, a query at the left end and a constant segment each leave only `left.y`: the product is formed
with a zero, or not at all. -/
theorem qlerp_eq_left {f : Fmt} {m : Rounding} {x lx ly rx ry : Int}
    (hly : minOf f.width ≤ ly ∧ ly ≤ maxOf f.width) (h : rx = lx ∨ x = lx ∨ ry = ly) :
    qlerp f m x lx ly rx ry = ly := by
  by_cases hzero : rx = lx
  · exact qlerp_of_eq hzero
  rw [qlerp_of_ne hzero]
  obtain hwidth | rfl | rfl := h
  · exact absurd hwidth hzero
  · rw [qsub_self, qmul_zero_left, qadd_zero_left hly]
  · rw [qsub_self f ry, qdiv_zero_left f (mt (qsub_eq_zero f rx lx).mp hzero), qmul_zero, qadd_zero_left hly]

/-! ### Conversion (R220 to R222) -/

theorem qnarrow_of_mem (p : Narrowing) {n : Int} (hlo : -32768 ≤ n) (hhi : n ≤ 32767) : qnarrow p n = n := by
  cases p with
  | saturate => exact sat_of_mem 16 n hlo hhi
  | wrap => exact wrap_of_mem .q7p8 n hlo hhi

/-- A 7p8 value on `R` widens to itself. -/
theorem extended_enc24 {n : Int} (hlo : -32768 ≤ n) (hhi : n ≤ 32767) : extended (enc24 n) = enc24 n := by
  rw [← enc24_low16, low16_enc24 hlo hhi]

theorem low16_mem (v : Word) : -32768 ≤ low16 v ∧ low16 v ≤ 32767 := by
  have h := portValue_mem .q7p8 v
  rwa [portValue_q7p8] at h

/-- Narrowing then widening gives a value back exactly when it is a 7p8 value. -/
theorem enc24_qnarrow_eq_iff (p : Narrowing) (a : Word) :
    enc24 (qnarrow p a.toInt) = a ↔ -32768 ≤ a.toInt ∧ a.toInt ≤ 32767 := by
  constructor
  · intro h
    obtain ⟨hlo, hhi⟩ := qnarrow_mem p a.toInt
    rw [← h, toInt_enc24 _ (by omega) (by omega)]
    exact ⟨hlo, hhi⟩
  · rintro ⟨hlo, hhi⟩
    rw [qnarrow_of_mem p hlo hhi, enc24_toInt]

/-- A number in the 7p8 range saturates in neither format (R11, R36). -/
theorem sat_of_mem_q7p8 (f : Fmt) {n : Int} (hlo : -32768 ≤ n) (hhi : n ≤ 32767) : sat f.width n = n := by
  cases f
  · exact sat_of_mem 16 n hlo hhi
  · exact sat_of_mem 24 n (by rw [minOf_24]; omega) (by rw [maxOf_24]; omega)

theorem portValue_extended (f : Fmt) (a : Word) : portValue f (extended a) = low16 a := by
  have h := low16_mem a
  rw [← enc24_low16]
  refine portValue_enc24 ?_
  cases f <;> simp only [width_q7p8, width_q15p8, minOf_16, maxOf_16, minOf_24, maxOf_24] <;> omega

/-! ### Comparison (R94, R117) -/

theorem toInt_enc24_compareCode (a b : Int) : (enc24 (compareCode a b)).toInt = compareCode a b := by
  obtain ⟨hlo, hhi⟩ := compareCode_mem a b
  exact toInt_enc24 _ (by omega) (by omega)

/-- Each of R94's tests of the comparison's word is the relation itself on the two integers. -/
theorem testCompare_compareCode (rel : Relation) (a b : Int) :
    Relation.testCompare (enc24 (compareCode a b)) rel = rel.holds a b := by
  have hcases := compareCode_cases a b
  rw [Bool.eq_iff_iff]
  cases rel
  all_goals
    simp only [Relation.testCompare, Relation.holds, toInt_enc24_compareCode, beq_iff_eq, bne_iff_ne, decide_eq_true_eq]
    omega

/-! ### The laws of sum, difference, product and quotient, as the block answers them (R119, R158) -/

/-- The five neutral laws in one format, for the word `w` that an operand's value has on `R` (R119, R158). -/
theorem neutral_operands {f : Fmt} {a w : Word} (b : Build) (hw : enc24 (portValue f a) = w) :
    Gives2 b (formatCode f 0b0000) a 0 w ∧ Gives2 b (formatCode f 0b0001) a a 0 ∧
    ((f = .q15p8 → b.mul15Present = true) → Gives2 b (formatCode f 0b0010) a 0x000100 w) ∧
    Gives2 b (formatCode f 0b0011) a 0x000100 w ∧
    (portValue f a ≠ 0 → Gives2 b (formatCode f 0b0011) a a 0x000100) := by
  subst hw
  have hmem := portValue_mem f a
  refine ⟨?_, ?_, fun hmul => ?_, ?_, fun hne => ?_⟩
  · have h := gives2_qadd f b a 0
    rwa [portValue_zero, qadd_zero hmem] at h
  · have h := gives2_qsub f b a a
    rwa [qsub_self] at h
  · have h := gives2_qmul hmul a 0x000100
    rwa [portValue_one, qmul_one hmem] at h
  · have h := gives2_qdiv f b a 0x000100
    rwa [portValue_one, qdiv_one hmem] at h
  · have h := gives2_qdiv f b a a
    rwa [qdiv_self f hne] at h

/-- Two negations in one format: the word comes back, or MIN gives `MIN + 1` (R119, R158). -/
theorem double_negation (f : Fmt) (b : Build) (a : Word) : ∃ m, Gives1 b (formatCode f 0b0100) a m ∧
    Gives1 b (formatCode f 0b0100) m
      (enc24 (if portValue f a = minOf f.width then minOf f.width + 1 else portValue f a)) := by
  have h := gives1_qneg f b (enc24 (qneg f (portValue f a)))
  rw [portValue_enc24 (qneg_mem f _), qneg_qneg (portValue_mem f a)] at h
  exact ⟨_, gives1_qneg f b a, h⟩

theorem difference_as_sum (f : Fmt) (b : Build) (a c : Word) (hne : portValue f c ≠ minOf f.width) :
    ∃ m v, Gives1 b (formatCode f 0b0100) c m ∧ Gives2 b (formatCode f 0b0000) a m v ∧
      Gives2 b (formatCode f 0b0001) a c v := by
  have h := gives2_qadd f b a (enc24 (qneg f (portValue f c)))
  rw [portValue_enc24 (qneg_mem f _), ← qsub_eq_qadd_qneg _ (portValue_mem f c) hne] at h
  exact ⟨_, _, gives1_qneg f b c, h, gives2_qsub f b a c⟩

theorem toInt_eq_minOf_24_iff (v : Word) : v.toInt = -8388608 ↔ v = 0x800000 :=
  BitVec.toInt_inj (y := 0x800000)

end Sys2Proof.Machine
end

section
/-! SUPPORT. The statements on single commands and on their laws, each from the fact about its operation. -/

namespace Sys2Proof.Machine

open Sys2Proof.Claims

/-! ### The statements of 40_arith_7p8.md, 41_arith_15p8.md and 42_construct.md -/

/-- Settles O4: `qdiv_eq_quotient` in both formats. -/
theorem divideSaturatesWithDefinedZeroDivisor : Obligations.DivideSaturatesWithDefinedZeroDivisor := by
  unfold Obligations.DivideSaturatesWithDefinedZeroDivisor
  intro s
  refine ⟨drives_of_driveR rfl rfl rfl ?_, drives_of_driveR rfl rfl rfl ?_⟩
  · rw [qdiv_eq_quotient, operandA_q7p8, operandB_q7p8, width_q7p8, maxOf_16, minOf_16, enc24]
  · rw [qdiv_eq_quotient, operandA_q15p8, operandB_q15p8, width_q15p8, maxOf_24, minOf_24, enc24]

/-- Settles O11: the fraction is the division on plain integers. -/
theorem fractionConstructionTruncates : Obligations.FractionConstructionTruncates := by
  unfold Obligations.FractionConstructionTruncates
  intro s
  refine ⟨drives_of_driveR rfl rfl rfl ?_, drives_of_driveR rfl rfl rfl ?_⟩
  · rw [qfrac, qdiv_eq_quotient, operandA_q7p8, operandB_q7p8, width_q7p8, maxOf_16, minOf_16, enc24]
  · rw [qfrac, qdiv_eq_quotient, operandA_q15p8, operandB_q15p8, width_q15p8, maxOf_24, minOf_24, enc24]

/-- Settles O29: the exact sum and the exact product do not depend on the order. -/
theorem sumAndProductCommute : Obligations.SumAndProductCommute := by
  unfold Obligations.SumAndProductCommute
  intro b a c
  have hadd (f : Fmt) : ∃ v, Gives2 b (formatCode f 0b0000) a c v ∧ Gives2 b (formatCode f 0b0000) c a v :=
    ⟨_, gives2_qadd f b a c, qadd_comm f _ _ ▸ gives2_qadd f b c a⟩
  have hmul (f : Fmt) (hf : f = .q15p8 → b.mul15Present = true) :
      ∃ v, Gives2 b (formatCode f 0b0010) a c v ∧ Gives2 b (formatCode f 0b0010) c a v :=
    ⟨_, gives2_qmul hf a c, qmul_comm f _ _ _ ▸ gives2_qmul hf c a⟩
  exact ⟨hadd .q7p8, hmul .q7p8 nofun, hadd .q15p8, fun hpresent => hmul .q15p8 fun _ => hpresent⟩

/-- Settles O30: `neutral_operands` in both formats. -/
theorem neutralOperands : Obligations.NeutralOperands := by
  unfold Obligations.NeutralOperands
  intro b a
  obtain ⟨hadd7, hsub7, hmul7, hdiv7, hself7⟩ := neutral_operands b (enc24_portValue_q7p8 a)
  obtain ⟨hadd15, hsub15, hmul15, hdiv15, hself15⟩ := neutral_operands b (enc24_portValue_q15p8 a)
  have hne7 : low16 a ≠ 0 → portValue .q7p8 a ≠ 0 := by rw [portValue_q7p8]; exact id
  have hne15 : a ≠ 0 → portValue .q15p8 a ≠ 0 := by
    rw [portValue_q15p8]
    exact mt fun h => BitVec.toInt_inj.mp (h.trans BitVec.toInt_zero.symm)
  exact ⟨hadd7, hsub7, hmul7 nofun, hdiv7, hself7 ∘ hne7, hadd15, hsub15, fun hpresent => hmul15 fun _ => hpresent,
    hdiv15, hself15 ∘ hne15⟩

/-- Settles O31: `double_negation` and `difference_as_sum` in both formats, and the exception at MIN by its words. -/
theorem negationAndDifference : Obligations.NegationAndDifference := by
  unfold Obligations.NegationAndDifference
  refine ⟨fun b a => ?_, fun b a => ?_, fun b a c hne => ?_, fun b a c hne => ?_, fun b => ⟨?_, ?_, ?_⟩⟩
  · obtain ⟨m, hneg, hback⟩ := double_negation .q7p8 b a
    refine ⟨m, hneg, ?_⟩
    rw [portValue_q7p8, width_q7p8, minOf_16] at hback
    split_ifs at hback ⊢
    · exact hback
    · rwa [enc24_low16] at hback
  · obtain ⟨m, hneg, hback⟩ := double_negation .q15p8 b a
    refine ⟨m, hneg, ?_⟩
    rw [portValue_q15p8, width_q15p8, minOf_24] at hback
    simp only [toInt_eq_minOf_24_iff] at hback
    split_ifs at hback ⊢
    · exact hback
    · rwa [enc24_toInt] at hback
  · exact difference_as_sum .q7p8 b a c (by rwa [portValue_q7p8])
  · refine difference_as_sum .q15p8 b a c ?_
    rw [portValue_q15p8]
    exact mt (toInt_eq_minOf_24_iff c).mp hne
  · exact gives2_qsub .q7p8 b 0xFFFFFF 0x008000
  · exact gives1_qneg .q7p8 b 0x008000
  · exact gives2_qadd .q7p8 b 0xFFFFFF 0x007FFF

/-- Settles O32: each command's answer on the words, and for the products under each `MUL_ROUND`. -/
theorem sumAndProductDoNotAssociate : Obligations.SumAndProductDoNotAssociate := by
  unfold Obligations.SumAndProductDoNotAssociate
  intro b
  have hproduct {a c v : Word} (hv : ∀ m, enc24 (qmul .q7p8 m (low16 a) (low16 c)) = v) : Gives2 b 0x02 a c v := by
    have h := gives2_qmul (f := .q7p8) (b := b) nofun a c
    rwa [portValue_q7p8, portValue_q7p8, hv] at h
  refine ⟨⟨gives2_qadd .q7p8 b _ _, gives2_qadd .q7p8 b _ _, gives2_qadd .q7p8 b _ _, gives2_qadd .q7p8 b _ _⟩,
    hproduct ?_, hproduct ?_, hproduct ?_, hproduct ?_⟩
  all_goals
    intro m
    cases m <;> decide

/-- Settles O33: a sum or difference in the 7p8 range saturates in neither format, and widening keeps it. -/
theorem wideningCommutesWithSumAndDifference : Obligations.WideningCommutesWithSumAndDifference := by
  unfold Obligations.WideningCommutesWithSumAndDifference
  have hwide {n : Int} (b : Build) (hlo : -32768 ≤ n) (hhi : n ≤ 32767) : Gives1 b 0x07 (enc24 n) (enc24 n) := by
    have h := gives1_qwid b (enc24 n)
    rwa [extended_enc24 hlo hhi] at h
  refine ⟨fun b a c hlo hhi => ?_, fun b a c hlo hhi => ?_, fun b => ⟨?_, ?_⟩⟩
  · have h7 := gives2_qadd .q7p8 b a c
    have h15 := gives2_qadd .q15p8 b (extended a) (extended c)
    rw [portValue_q7p8, portValue_q7p8, qadd, sat_of_mem_q7p8 _ hlo hhi] at h7
    rw [portValue_extended, portValue_extended, qadd, sat_of_mem_q7p8 _ hlo hhi] at h15
    exact ⟨_, _, _, _, gives1_qwid b a, gives1_qwid b c, h7, hwide b hlo hhi, h15⟩
  · have h7 := gives2_qsub .q7p8 b a c
    have h15 := gives2_qsub .q15p8 b (extended a) (extended c)
    rw [portValue_q7p8, portValue_q7p8, qsub, sat_of_mem_q7p8 _ hlo hhi] at h7
    rw [portValue_extended, portValue_extended, qsub, sat_of_mem_q7p8 _ hlo hhi] at h15
    exact ⟨_, _, _, _, gives1_qwid b a, gives1_qwid b c, h7, hwide b hlo hhi, h15⟩
  · exact gives2_qadd .q15p8 b 0x007FFF 0x000001
  · exact gives2_qadd .q7p8 b 0x007FFF 0x000001

/-- Settles O34: `integer_round_trip` in both formats; at 200 the construction saturates. -/
theorem integerRoundTrip : Obligations.IntegerRoundTrip := by
  unfold Obligations.IntegerRoundTrip
  refine ⟨fun b n hlo hhi => ?_, fun b n hlo hhi => ?_, fun b => ⟨?_, ?_⟩⟩
  · exact integer_round_trip (f := .q7p8) b (by simp only [width_q7p8, minOf_16, maxOf_16]; omega)
  · exact integer_round_trip (f := .q15p8) b (by simp only [width_q15p8, minOf_24, maxOf_24]; omega)
  · exact gives1_qfint .q7p8 b 200
  · have h := gives1_qtint .q7p8 b 0x007FFF
    cases hround : b.tointRound <;> rw [hround] at h <;> exact h

/-- Settles O35: `fraction_is_quotient` in both formats; at 200 over 2 the constructed dividend has saturated, and the
fraction has not. -/
theorem fractionIsQuotientOfIntegers : Obligations.FractionIsQuotientOfIntegers := by
  unfold Obligations.FractionIsQuotientOfIntegers
  refine ⟨fun b n d hn hn' hd hd' => ?_, fun b n d hn hn' hd hd' => ?_, fun b => ?_⟩
  · exact fraction_is_quotient (f := .q7p8) b (by simp only [width_q7p8, minOf_16, maxOf_16]; omega)
      (by simp only [width_q7p8, minOf_16, maxOf_16]; omega)
  · exact fraction_is_quotient (f := .q15p8) b (by simp only [width_q15p8, minOf_24, maxOf_24]; omega)
      (by simp only [width_q15p8, minOf_24, maxOf_24]; omega)
  · exact ⟨_, gives1_qfint .q7p8 b 200, gives1_qfint .q7p8 b 2, gives2_qdiv .q7p8 b 0x007FFF 0x000200,
      gives2_qfrac .q7p8 b 200 2, by decide⟩

/-! ### The statements of 43_convert.md, 44_interp.md and 30_encoding.md section 6 -/

/-- Settles O36: a 7p8 value is narrowed to itself; and what is narrowed is a 7p8 value, so widening keeps its word, which
`enc24_qnarrow_eq_iff` compares with the one before. -/
theorem conversionRoundTrip : Obligations.ConversionRoundTrip := by
  unfold Obligations.ConversionRoundTrip
  intro b a
  obtain ⟨hlo, hhi⟩ := low16_mem a
  obtain ⟨hlo', hhi'⟩ := qnarrow_mem b.narrowPolicy a.toInt
  have hback := gives1_qnar b (extended a)
  have hwide := gives1_qwid b (enc24 (qnarrow b.narrowPolicy a.toInt))
  rw [toInt_extended, qnarrow_of_mem _ hlo hhi, enc24_low16] at hback
  rw [extended_enc24 hlo' hhi'] at hwide
  exact ⟨⟨_, gives1_qwid b a, hback⟩, _, _, gives1_qnar b a, hwide, enc24_qnarrow_eq_iff _ a⟩

/-- Settles O37: `qlerp_eq_left` in both formats. -/
theorem interpolationAtLeftAndOnConstantSegments : Obligations.InterpolationAtLeftAndOnConstantSegments := by
  unfold Obligations.InterpolationAtLeftAndOnConstantSegments
  intro b x lx ly rx ry
  have hleft (f : Fmt) (hmul : f = .q15p8 → b.mul15Present = true)
      (h : portValue f rx = portValue f lx ∨ portValue f x = portValue f lx ∨ portValue f ry = portValue f ly) :
      Gives5 b (formatCode f 0b1011) x lx ly rx ry (enc24 (portValue f ly)) := by
    have hgives := gives5_qlerp hmul x lx ly rx ry
    rwa [qlerp_eq_left (portValue_mem f ly) h] at hgives
  refine ⟨fun h => ?_, fun hpresent h => ?_⟩
  · have hgives := hleft .q7p8 nofun (by simpa only [portValue_q7p8] using h)
    rwa [enc24_portValue_q7p8] at hgives
  · have hgives := hleft .q15p8 (fun _ => hpresent) (by simpa only [portValue_q15p8, BitVec.toInt_inj] using h)
    rwa [enc24_portValue_q15p8] at hgives

/-- Settles O38: both comparisons drive `compareCode`, whose tests are the relations by `testCompare_compareCode`. -/
theorem comparisonTestsAreTheRelations : Obligations.ComparisonTestsAreTheRelations := by
  unfold Obligations.ComparisonTestsAreTheRelations
  intro s
  rw [← operandA_q7p8, ← operandB_q7p8, ← operandA_q15p8, ← operandB_q15p8]
  exact ⟨_, _, rfl, rfl, fun rel => ⟨testCompare_compareCode rel _ _, testCompare_compareCode rel _ _⟩⟩

end Sys2Proof.Machine
end

section
/-! SUPPORT. How large the exact intermediates of the rules become (R41), and the fixed-width datapath: an intermediate wide
enough for them never wraps, so the datapath computes what the rules compute on exact integers (R16, R41). -/

namespace Sys2Proof.Machine

open Sys2Proof.Claims

/-! ### Magnitudes (R41) -/

theorem width_ne_zero (f : Fmt) : f.width ≠ 0 := by
  cases f <;> decide

theorem abs_toInt_le {W : Nat} (v : BitVec W) : |v.toInt| ≤ 2 ^ (W - 1) :=
  abs_le.mpr ⟨v.le_toInt, v.toInt_lt.le⟩

theorem abs_toInt_mul_le {W : Nat} (u v : BitVec W) : |u.toInt * v.toInt| ≤ 2 ^ (2 * W - 2) := by
  have hexp : 2 * W - 2 = (W - 1) + (W - 1) := by omega
  rw [abs_mul, hexp, pow_add]
  exact mul_le_mul (abs_toInt_le u) (abs_toInt_le v) (abs_nonneg _) (by positivity)

theorem abs_shl_toInt_le {W : Nat} (hW : W ≠ 0) (v : BitVec W) : |shl v.toInt Config.F| ≤ 2 ^ (W + Config.F - 1) := by
  have hexp : W + Config.F - 1 = (W - 1) + Config.F := by omega
  rw [shl, abs_mul, abs_of_pos (by positivity : (0 : Int) < 2 ^ Config.F), hexp, pow_add]
  exact mul_le_mul_of_nonneg_right (abs_toInt_le v) (by positivity)

theorem abs_tdiv_le_abs (n d : Int) : |tdiv n d| ≤ |n| := by
  rw [tdiv_eq, Int.abs_eq_natAbs, Int.abs_eq_natAbs]
  exact_mod_cast Int.natAbs_tdiv_le_natAbs n d

/-- Settles O41: an operand is a signed number of its format's width, and each intermediate is bounded from that. -/
theorem intermediatesStayInBounds : Obligations.IntermediatesStayInBounds := by
  unfold Obligations.IntermediatesStayInBounds
  intro f p q s a b
  have hwidth : (2 : Int) * 2 ^ (f.width - 1) = 2 ^ f.width := mul_pow_sub_one (width_ne_zero f) 2
  have hshl : |shl a Config.F| ≤ 2 ^ (f.width + Config.F - 1) := abs_shl_toInt_le (width_ne_zero f) _
  obtain ⟨halo, hahi⟩ := abs_le.mp (show |a| ≤ 2 ^ (f.width - 1) from abs_toInt_le _)
  obtain ⟨hblo, hbhi⟩ := abs_le.mp (show |b| ≤ 2 ^ (f.width - 1) from abs_toInt_le _)
  refine ⟨abs_le.mpr ?_, abs_le.mpr ?_, abs_le.mpr ?_, abs_toInt_mul_le _ _, hshl,
    fun _ => (abs_tdiv_le_abs _ b).trans hshl⟩
  all_goals omega

/-! ### Intermediates that do not wrap (R16) -/

/-- A number that `n` bits hold is its own balanced remainder. -/
theorem bmod_two_pow_of_mem {x : Int} {n : Nat} (hn : n ≠ 0) (hlo : -2 ^ (n - 1) ≤ x) (hhi : x < 2 ^ (n - 1)) :
    Int.bmod x (2 ^ n) = x := by
  have hpow : (2 : Int) * 2 ^ (n - 1) = 2 ^ n := mul_pow_sub_one hn 2
  refine Int.bmod_eq_of_le_mul_two ?_ ?_ <;> push_cast <;> omega

/-- A number of magnitude `2 ^ k` fits in `k + 2` bits. -/
theorem bmod_two_pow_of_abs_le {x : Int} {k n : Nat} (hk : k + 2 ≤ n) (hx : |x| ≤ 2 ^ k) : Int.bmod x (2 ^ n) = x := by
  have hpow : (2 : Int) ^ k < 2 ^ (n - 1) := pow_lt_pow_right₀ (by decide) (by omega)
  obtain ⟨hlo, hhi⟩ := abs_le.mp hx
  exact bmod_two_pow_of_mem (by omega) (by omega) (by omega)

/-- Truncation to `W` bits keeps the balanced remainder (R12). -/
theorem toInt_setWidth_eq_bmod {n W : Nat} (h : W ≤ n) (v : BitVec n) :
    (v.setWidth W).toInt = Int.bmod v.toInt (2 ^ W) := by
  rw [← BitVec.signExtend_eq_setWidth_of_le v h, BitVec.toInt_signExtend_eq_toInt_bmod_of_le v h]

/-- The narrowing stage is the rules' saturation of the intermediate (R11). -/
theorem toInt_narrowSaturating {n W : Nat} (hW : W ≠ 0) (h : W ≤ n) (v : BitVec n) :
    (narrowSaturating n W v).toInt = sat W v.toInt := by
  unfold narrowSaturating sat
  split_ifs with hhi hlo
  · exact BitVec.toInt_intMax
  · exact BitVec.toInt_intMin_of_pos (Nat.pos_of_ne_zero hW)
  · rw [toInt_setWidth_eq_bmod h]
    simp only [maxOf, minOf] at hhi hlo
    exact bmod_two_pow_of_mem hW (by omega) (by omega)

section

variable {n W : Nat} (hW : W ≠ 0) (a b : BitVec W)
include hW

/-- One bit more than the operands holds what is as large as two of them. -/
theorem bmod_two_pow_of_two_operands {x : Int} (h : W + 1 ≤ n) (hlo : -2 ^ (W - 1) + -2 ^ (W - 1) ≤ x)
    (hhi : x < 2 ^ (W - 1) + 2 ^ (W - 1)) : Int.bmod x (2 ^ n) = x := by
  have hpow : (2 : Int) ^ W ≤ 2 ^ (n - 1) := pow_le_pow_right₀ (by decide) (by omega)
  have hwidth : (2 : Int) * 2 ^ (W - 1) = 2 ^ W := mul_pow_sub_one hW 2
  exact bmod_two_pow_of_mem (by omega) (by omega) (by omega)

theorem toInt_add_signExtend (h : W + 1 ≤ n) :
    (a.signExtend n + b.signExtend n).toInt = a.toInt + b.toInt := by
  rw [BitVec.toInt_add, BitVec.toInt_signExtend_of_le (by omega), BitVec.toInt_signExtend_of_le (by omega)]
  exact bmod_two_pow_of_two_operands hW h (add_le_add a.le_toInt b.le_toInt) (add_lt_add a.toInt_lt b.toInt_lt)

theorem toInt_sub_signExtend (h : W + 1 ≤ n) :
    (a.signExtend n - b.signExtend n).toInt = a.toInt - b.toInt := by
  rw [BitVec.toInt_sub, BitVec.toInt_signExtend_of_le (by omega), BitVec.toInt_signExtend_of_le (by omega)]
  exact bmod_two_pow_of_two_operands hW h (by linarith [a.le_toInt, b.toInt_lt]) (by linarith [a.toInt_lt, b.le_toInt])

/-- Twice the operands' bits hold every product. -/
theorem toInt_mul_signExtend (h : 2 * W ≤ n) :
    (a.signExtend n * b.signExtend n).toInt = a.toInt * b.toInt := by
  rw [BitVec.toInt_mul, BitVec.toInt_signExtend_of_le (by omega), BitVec.toInt_signExtend_of_le (by omega)]
  exact bmod_two_pow_of_abs_le (by omega) (abs_toInt_mul_le a b)

/-- `F + 1` bits more than the operand hold the dividend shifted left by `F`. -/
theorem toInt_shl_signExtend (h : W + Config.F + 1 ≤ n) :
    (a.signExtend n <<< Config.F).toInt = shl a.toInt Config.F := by
  have hshift : (a.signExtend n <<< Config.F).toInt = Int.bmod (shl (a.signExtend n).toInt Config.F) (2 ^ n) := by
    rw [BitVec.toInt_shiftLeft, Nat.shiftLeft_eq, BitVec.toInt_eq_toNat_bmod, shl, Int.bmod_mul_bmod]
    push_cast
    rfl
  rw [hshift, BitVec.toInt_signExtend_of_le (by omega)]
  exact bmod_two_pow_of_abs_le (by omega) (abs_shl_toInt_le hW a)

end

/-- A quotient is no larger than its dividend, so it does not wrap where the dividend leaves a bit free (R13). -/
theorem toInt_sdiv_of_abs_le {k n : Nat} {u v : BitVec n} (hk : k + 2 ≤ n) (hu : |u.toInt| ≤ 2 ^ k) :
    (u.sdiv v).toInt = tdiv u.toInt v.toInt := by
  rw [BitVec.toInt_sdiv, ← tdiv_eq]
  exact bmod_two_pow_of_abs_le hk ((abs_tdiv_le_abs _ _).trans hu)

/-! ### The four units -/

section

variable {n : Nat} {f : Fmt} (a b : BitVec f.width)

theorem toInt_realisedAdd (h : f.width + 1 ≤ n) : (realisedAdd n f.width a b).toInt = qadd f a.toInt b.toInt := by
  rw [realisedAdd, toInt_narrowSaturating (width_ne_zero f) (by omega),
    toInt_add_signExtend (width_ne_zero f) a b h, qadd]

theorem toInt_realisedSub (h : f.width + 1 ≤ n) : (realisedSub n f.width a b).toInt = qsub f a.toInt b.toInt := by
  rw [realisedSub, toInt_narrowSaturating (width_ne_zero f) (by omega),
    toInt_sub_signExtend (width_ne_zero f) a b h, qsub]

/-- The subtractor negates, as `0 - a` (R115, R155). -/
theorem toInt_realisedSub_zero (h : f.width + 1 ≤ n) : (realisedSub n f.width 0 a).toInt = qneg f a.toInt := by
  rw [toInt_realisedSub 0 a h, qsub, qneg, BitVec.ofNat_eq_ofNat, BitVec.toInt_zero, zero_sub]

theorem toInt_realisedMul (m : Rounding) (h : 2 * f.width ≤ n) :
    (realisedMul n f.width m a b).toInt = qmul f m a.toInt b.toInt := by
  have hwidth : 10 ≤ f.width := by cases f <;> decide
  have hproduct := toInt_mul_signExtend (width_ne_zero f) a b h
  rw [qmul_eq_bmod, ← hproduct]
  cases m with
  | floor =>
    rw [realisedMul, toInt_setWidth_eq_bmod (by omega), BitVec.toInt_sshiftRight, Int.shiftRight_eq_div_pow]
    rfl
  | trunc =>
    have hdivisor : (BitVec.ofNat n (2 ^ Config.F)).toInt = 256 := by
      rw [BitVec.toInt_ofNat']
      exact bmod_two_pow_of_abs_le (k := 8) (by omega) (by decide)
    have hquotient := toInt_sdiv_of_abs_le (v := BitVec.ofNat n (2 ^ Config.F)) (by omega)
      (hproduct ▸ abs_toInt_mul_le a b)
    rw [realisedMul, toInt_setWidth_eq_bmod (by omega), hquotient, hdivisor, tdiv_eq]
    rfl

theorem toInt_realisedDiv (h : f.width + Config.F + 1 ≤ n) :
    (realisedDiv n f.width a b).toInt = qdiv f a.toInt b.toInt := by
  have hzero : b = 0 ↔ b.toInt = 0 := by
    rw [← BitVec.toInt_inj, BitVec.ofNat_eq_ofNat, BitVec.toInt_zero]
  have hdividend := toInt_shl_signExtend (width_ne_zero f) a h
  have hwidth := width_ne_zero f
  have hquotient := toInt_sdiv_of_abs_le (v := b.signExtend n) (by omega)
    (hdividend ▸ abs_shl_toInt_le (width_ne_zero f) a)
  simp only [realisedDiv, qdiv, hzero]
  split_ifs with hb hmsb
  · rw [BitVec.msb_eq_toInt, decide_eq_true_eq] at hmsb
    rw [divideByZero, if_neg (by omega)]
    exact BitVec.toInt_intMin_of_pos (Nat.pos_of_ne_zero (width_ne_zero f))
  · rw [BitVec.msb_eq_toInt, decide_eq_true_eq] at hmsb
    rw [divideByZero, if_pos (by omega)]
    exact BitVec.toInt_intMax
  · rw [toInt_narrowSaturating (width_ne_zero f) (by omega), hquotient, hdividend,
      BitVec.toInt_signExtend_of_le (by omega)]

end

/-- Settles O42: the four units in both formats; R41's widths are `W + 1`, `2 W` and `W + F + 1`. -/
theorem fixedWidthDatapathAgrees : Obligations.FixedWidthDatapathAgrees := by
  unfold Obligations.FixedWidthDatapathAgrees
  constructor
  · intro n m a b
    exact ⟨fun h => ⟨toInt_realisedAdd (f := .q7p8) a b h, toInt_realisedSub (f := .q7p8) a b h,
        toInt_realisedSub_zero (f := .q7p8) a h⟩,
      toInt_realisedMul (f := .q7p8) a b m, toInt_realisedDiv (f := .q7p8) a b⟩
  · intro n m a b
    exact ⟨fun h => ⟨toInt_realisedAdd (f := .q15p8) a b h, toInt_realisedSub (f := .q15p8) a b h,
        toInt_realisedSub_zero (f := .q15p8) a h⟩,
      toInt_realisedMul (f := .q15p8) a b m, toInt_realisedDiv (f := .q15p8) a b⟩

end Sys2Proof.Machine
end

section
/-! SUPPORT. The host's side: inputs held for `T_PD` and sampled, also when another code has used the ports in between (R70,
R340, R350, R351), and the lines of a host program (R91 to R96). -/

namespace Sys2Proof.Machine

open Sys2Proof.Claims

/-! ### Samples (R350, R351) -/

/-- A sample in time leaves on `R` what the block answers to the inputs on its ports. -/
theorem sample_of_settled {t : Timed} {v : Word} (htime : Config.T_PD t.block.build ≤ t.heldFor)
    (hv : respond t.block.build t.block.inputs = some v) : t.sample = .next { t with block := t.block.setR v } := by
  have hstep : step t.block = .next (t.block.setR v) := (respond_eq_some_iff t.block t.block.inputs v).mp hv
  rw [Timed.sample, if_pos htime, hstep]

/-- A sample too early reads any value. -/
theorem sample_of_early {t : Timed} (htime : t.heldFor < Config.T_PD t.block.build) :
    t.sample = .next t.sampleAnyValue :=
  if_neg (not_le.mpr htime)

@[simp] theorem hold_present_build (t : Timed) (x : Inputs) (n : Nat) :
    ((t.present x).hold n).block.build = t.block.build := by
  rw [hold_block, present_block, State.drive_build]

@[simp] theorem hold_present_inputs (t : Timed) (x : Inputs) (n : Nat) : ((t.present x).hold n).block.inputs = x := by
  rw [hold_block, present_block, State.drive_inputs]

/-- Inputs presented, held for `T_PD` and sampled give their answer, whatever went before. -/
theorem sample_of_presented {t : Timed} {b : Build} {x : Inputs} {v : Word} {n : Nat} (hb : t.block.build = b)
    (hv : respond b x = some v) (hn : Config.T_PD b ≤ n) :
    ∃ t' : Timed, ((t.present x).hold n).sample = .next t' ∧ t'.block = (t.block.drive x).setR v := by
  subst hb
  refine ⟨_, sample_of_settled (v := v) ?_ ?_, ?_⟩
  · rw [hold_present_build, hold_heldFor]
    exact hn.trans (Nat.le_add_left n _)
  · rwa [hold_present_build, hold_present_inputs]
  · rw [hold_block, present_block]

/-- A block on whose ports a code of its build stands has an answer to them (R87, R300). -/
theorem respond_of_commanded {s : State} (h : s.commanded = true) :
    ∃ v : Word, respond s.build s.inputs = some v := by
  obtain ⟨v, hstep⟩ := (step_answers_iff s).mpr h
  exact ⟨v, (respond_eq_some_iff s s.inputs v).mpr hstep⟩

/-! ### The statements of 70_reset_and_hazards.md -/

/-- Settles O43: `sample_of_presented`. -/
theorem sampleAfterSettlingGivesAnswer : Obligations.SampleAfterSettlingGivesAnswer := by
  unfold Obligations.SampleAfterSettlingGivesAnswer
  intro t x v n hv hn
  exact sample_of_presented rfl hv hn

/-- Settles O44: in time the answer, which a commanded block has; before, the free value. -/
theorem earlySampleReadsAnyValue : Obligations.EarlySampleReadsAnyValue := by
  unfold Obligations.EarlySampleReadsAnyValue
  intro t hcommanded
  obtain ⟨v, hv⟩ := respond_of_commanded hcommanded
  obtain htime | htime := Nat.lt_or_ge t.heldFor (Config.T_PD t.block.build)
  · exact ⟨_, sample_of_early htime, rfl, rfl, rfl, .inr ⟨htime, rfl⟩⟩
  · exact ⟨_, sample_of_settled htime hv, rfl, rfl, rfl, .inl hv⟩

/-- Settles O45: both samples are of inputs presented and held for `T_PD`; neither presenting, holding nor sampling changes
the build. -/
theorem interruptedCommandIsPresentedAgain : Obligations.InterruptedCommandIsPresentedAgain := by
  unfold Obligations.InterruptedCommandIsPresentedAgain
  intro t main handler v w k n hmain hhandler hn
  obtain ⟨t₁, hsample₁, hblock₁⟩ := sample_of_presented (hold_present_build t main k) hhandler hn
  have hbuild₁ : t₁.block.build = t.block.build := by
    rw [hblock₁, State.setR_build, State.drive_build, hold_present_build]
  obtain ⟨t₂, hsample₂, hblock₂⟩ := sample_of_presented hbuild₁ hmain hn
  exact ⟨t₁, t₂, hsample₁, by rw [hblock₁, State.setR_r], hsample₂, by rw [hblock₂, State.setR_r]⟩

/-- Settles O48: the port's own sample is `sample_of_presented`; the interrupted code's read is any value while the handler's
inputs stand on the ports, and a sample once its own stand there again. -/
theorem interruptedReadIsAnyValue : Obligations.InterruptedReadIsAnyValue := by
  unfold Obligations.InterruptedReadIsAnyValue
  intro t main handler w k n hhandler hn u
  have hbuild : u.block.build = t.block.build := by
    rw [hold_present_build, hold_present_build]
  have hinputs : u.block.inputs = handler := hold_present_inputs _ handler n
  refine ⟨?_, fun hne => ?_, fun v hmain => ?_⟩
  · obtain ⟨t', hsample, hblock⟩ := sample_of_presented (hold_present_build t main k) hhandler hn
    exact ⟨t', hsample, by rw [hblock, State.setR_r]⟩
  · have hdraws : u.draws = t.draws := by
      rw [hold_draws, present_draws, hold_draws, present_draws]
    obtain ⟨hr, hinputs', hbuild', -, -⟩ := sampleAnyValue_frame u
    exact ⟨_, sampleFor_of_replaced u main (hinputs ▸ hne.symm), hr.trans (congrArg _ hdraws), hinputs'.trans hinputs,
      hbuild'.trans hbuild⟩
  · obtain ⟨t', hsample, hblock⟩ := sample_of_presented hbuild hmain hn
    exact ⟨t', (sampleFor_of_driven _ main (hold_present_inputs u main n)).trans hsample,
      by rw [hblock, State.setR_r]⟩

/-! ### What the host holds (R32) -/

theorem lookupHeld_bindHeld_same (held : List (Nat × Word)) (name : Nat) (v : Word) :
    lookupHeld (bindHeld held name v) name = some v := by
  induction held with
  | nil => exact if_pos rfl
  | cons entry rest ih =>
    rw [bindHeld]
    split_ifs with h
    · exact if_pos h
    · exact (if_neg h).trans ih

theorem lookupHeld_bindHeld_other (held : List (Nat × Word)) {name other : Nat} (v : Word) (hne : other ≠ name) :
    lookupHeld (bindHeld held name v) other = lookupHeld held other := by
  induction held with
  | nil => exact if_neg hne.symm
  | cons entry rest ih =>
    rw [bindHeld]
    split_ifs with h
    · have hentry : entry.1 ≠ other := h ▸ hne.symm
      exact (if_neg hentry).trans (if_neg hentry).symm
    · rw [lookupHeld, lookupHeld, ih]

/-! ### Lines of a program (R91, R94 to R96) -/

/-- A line whose sources the host holds, and whose command the block then answers, binds the answer (R91). -/
theorem runLine_command {h : Sequencer} {dst : Nat} {i : Instr} {srcs : List Source} {s t : State}
    (hlength : i.ports.length = srcs.length)
    (hdrive : drivePorts h.held i.ports srcs { h.block with op := encode i } = some s) (hstep : step s = .next t) :
    h.runLine (.command dst i srcs) =
      .ok { h with block := t, held := bindHeld h.held dst t.r, line := h.line + 1 } := by
  simp only [Sequencer.runLine, hlength, ne_eq, not_true_eq_false, if_false, hdrive, hstep]

/-- Settles O46: the two held values go to `P0` and `P1`, and the other ports, as they are, do not change the answer. -/
theorem hostLineBindsAnswer : Obligations.HostLineBindsAnswer := by
  unfold Obligations.HostLineBindsAnswer
  intro h i dst a b va vb v hports ha hb hgives
  have hdrive : drivePorts h.held i.ports [.held a, .held b] { h.block with op := encode i } =
      some { h.block with op := encode i, p0 := va, p1 := vb } := by
    simp only [hports, drivePorts, Source.value, ha, hb]
    rfl
  have hstep := (respond_eq_some_iff h.block _ v).mp (hgives h.block.p2 h.block.p3 h.block.p4)
  have hline := runLine_command (dst := dst) (by rw [hports]; rfl) hdrive hstep
  exact ⟨_, hline, fun hdst => hdst ▸ hline, lookupHeld_bindHeld_same _ _ _,
    fun n hne => lookupHeld_bindHeld_other _ _ hne, rfl, rfl⟩

/-- Settles O47: none of the four lines touches the block, where it runs. -/
theorem controlFlowLeavesBlockAlone : Obligations.ControlFlowLeavesBlockAlone := by
  unfold Obligations.ControlFlowLeavesBlockAlone
  rintro h h' dst src name target rel k l (rfl | rfl | rfl | rfl) hrun
  · rw [Sequencer.runLine] at hrun
    split at hrun <;> cases hrun
    rfl
  · rw [Sequencer.runLine] at hrun
    split at hrun <;> cases hrun
    rfl
  · cases hrun
    rfl
  · cases hrun
    rfl

end Sys2Proof.Machine
end
